-- ==== Sys2Proof/Word.lean ====
section
/-! DEFINITION. The word types: bytes, 32-bit register words, and nothing else (R4). -/

namespace Sys2Proof

/-- A byte: the smallest addressable unit of the memories and of every frame and packet. -/
abbrev Byte := BitVec 8

/-- A register word: every register is 32 bits wide (R4). -/
abbrev Word := BitVec 32

end Sys2Proof
end

