-- ==== Sys2Proof/Machine/Bits.lean ====
section
/-! DEFINITION. Bit fields, sign extension, byte order and saturating counts over natural numbers. -/

namespace Sys2Proof.Machine

/-- Bits `[lo + w - 1 : lo]` of `x`. -/
def bits (x lo w : Nat) : Nat := (x / 2 ^ lo) % 2 ^ w

/-- Bit `i` of `x`. -/
def bit (x i : Nat) : Bool := (x / 2 ^ i) % 2 == 1

/-- `x` with the field of `w` bits at `lo` replaced by `v`. -/
def setBits (x lo w v : Nat) : Nat :=
  x - bits x lo w * 2 ^ lo + (v % 2 ^ w) * 2 ^ lo

/-- 1 for true, 0 for false. -/
def b2n (b : Bool) : Nat := if b then 1 else 0

/-- The `w`-bit pattern `x` read as a two's complement number. -/
def toSigned (w x : Nat) : Int :=
  let y := x % 2 ^ w
  if 2 * y < 2 ^ w then (y : Int) else (y : Int) - (2 ^ w : Nat)

/-- The `w`-bit two's complement pattern of `i`, wrapping. -/
def ofSigned (w : Nat) (i : Int) : Nat := (i % ((2 ^ w : Nat) : Int)).toNat

/-- A count of `w` bits that saturates. -/
def satAdd (w x n : Nat) : Nat := min (x + n) (2 ^ w - 1)

/-- A count of `w` bits that wraps. -/
def wrapAdd (w x n : Nat) : Nat := (x + n) % 2 ^ w

/-- An integer clamped to `[lo, hi]`. -/
def clampInt (lo hi i : Int) : Int := max lo (min hi i)

/-- The number that little-endian bytes spell (00_scope.md, Numbers, units and bits). -/
def leNat : List Byte → Nat
  | [] => 0
  | b :: bs => b.toNat + 256 * leNat bs

/-- `n` little-endian bytes of `x`. -/
def leBytes : Nat → Nat → List Byte
  | 0, _ => []
  | n + 1, x => BitVec.ofNat 8 x :: leBytes n (x / 256)

/-- The number that big-endian bytes spell (port headers, R199; digests and key coordinates). -/
def beNat (bs : List Byte) : Nat := leNat bs.reverse

/-- `n` big-endian bytes of `x`. -/
def beBytes (n x : Nat) : List Byte := (leBytes n x).reverse

/-- `n` bytes of `bs` from offset `o`, with zeros past its end. -/
def sliceBytes (bs : List Byte) (o n : Nat) : List Byte :=
  let t := (bs.drop o).take n
  t ++ List.replicate (n - t.length) 0

/-- The little-endian number of `n` bytes of `bs` at offset `o`. -/
def leAt (bs : List Byte) (o n : Nat) : Nat := leNat ((bs.drop o).take n)

/-- The little-endian 32-bit words of a byte string. -/
def leWords (bs : List Byte) : List Nat :=
  (List.range (bs.length / 4)).map fun i => leAt bs (4 * i) 4

/-- The bytes of a list of 32-bit words. -/
def wordBytes (ws : List Nat) : List Byte := ws.flatMap (leBytes 4)

/-- The positions of the bits set in the low `w` bits of `x`. -/
def setBitsOf (w x : Nat) : List Nat := (List.range w).filter (bit x)

/-- The number whose set bits are the members of `l`. -/
def maskOf (l : List Nat) : Nat := l.eraseDups.foldl (fun a i => a + 2 ^ i) 0

/-- The number of bits set in the low `w` bits of `x`. -/
def popCount (w x : Nat) : Nat := (setBitsOf w x).length

/-- The ceiling of `a / b`. -/
def ceilDiv (a b : Nat) : Nat := (a + b - 1) / b

/-- The integer square root, by halving steps (enough for the widths used). -/
def isqrtAux : Nat → Nat → Nat → Nat → Nat
  | 0, lo, _, _ => lo
  | f + 1, lo, hi, n =>
    if hi ≤ lo + 1 then lo
    else
      let m := (lo + hi) / 2
      if m * m ≤ n then isqrtAux f m hi n else isqrtAux f lo m n

/-- The largest number whose square does not exceed `n`. -/
def isqrt (n : Nat) : Nat := isqrtAux 128 0 (n + 1) n

/-- Element `i` of a list of numbers, 0 past its end. -/
def nth (l : List Nat) (i : Nat) : Nat := l.getD i 0

/-- Bitwise and, or and exclusive or of numbers. -/
def land (a b : Nat) : Nat := Nat.land a b
def lor (a b : Nat) : Nat := Nat.lor a b
def lxor (a b : Nat) : Nat := Nat.xor a b

/-- `a` with the bits of `b` cleared. -/
def andNot (a b : Nat) : Nat := a - Nat.land a b

end Sys2Proof.Machine
end

