-- ==== Sys2Proof/Machine/Crc.lean ====
section
/-! DEFINITION. The checks the spec names: CRC-16 (R497, R198), CRC-32C (R498), the CRC-8 of markers and
interjections (R515, R534), and SHA-256 (R115, R117). -/

namespace Sys2Proof.Machine

/-- One bit of a CRC that shifts left: `w` bits wide, polynomial `poly`, next message bit `b`. -/
def crcBitLeft (w poly r : Nat) (b : Bool) : Nat :=
  let top := bit r (w - 1)
  let r' := (r * 2) % 2 ^ w
  if top != b then lxor r' poly else r'

/-- One byte, most significant bit first. -/
def crcByteLeft (w poly r : Nat) (x : Byte) : Nat :=
  [7, 6, 5, 4, 3, 2, 1, 0].foldl (fun a i => crcBitLeft w poly a (bit x.toNat i)) r

/-- CRC-16, polynomial 0x1021, initial value 0xFFFF, no reflection, no inversion (R497). -/
def crc16 (bs : List Byte) : Nat := bs.foldl (crcByteLeft 16 0x1021) 0xFFFF

/-- The CRC-8 of R516: polynomial 0x07, initial value 0. -/
def crc8 (bs : List Byte) : Nat := bs.foldl (crcByteLeft 8 0x07) 0

/-- The CRC-8 of an interjection, over its two LSN bytes (R534). -/
def interjectionCrc (lsn : Nat) : Nat := crc8 (leBytes 2 lsn)

/-- One byte of the reflected CRC-32C. -/
def crc32cByte (r : Nat) (x : Byte) : Nat :=
  [0, 1, 2, 3, 4, 5, 6, 7].foldl
    (fun a _ => if a % 2 = 1 then lxor (a / 2) 0x82F63B78 else a / 2) (lxor r x.toNat)

/-- CRC-32C: reflected 0x82F6_3B78, initial value and final inversion 0xFFFF_FFFF (R498). -/
def crc32c (bs : List Byte) : Nat := lxor (bs.foldl crc32cByte 0xFFFFFFFF) 0xFFFFFFFF

/-- SHA-256 turns a word right by each of some distances and adds the results without carry. -/
def shaTurns (ds : List Nat) (x : Nat) : Nat :=
  ds.foldl (fun acc d => lxor acc (lor (x / 2 ^ d) (x * 2 ^ (32 - d) % 2 ^ 32))) 0

/-- The words of a number, the highest first. -/
def shaWords (n big : Nat) : List Nat := (List.range n).map fun i => big / 2 ^ (32 * (n - 1 - i)) % 2 ^ 32

/-- The 64 constants of SHA-256, eight to a number: the first 32 bits of the fractional parts of the cube roots of the first 64
primes (PRESUMED, notes/assumptions/71.md: the spec names the algorithm alone). -/
def shaCubeRoots : List Nat :=
  shaWords 8 0x428a2f9871374491b5c0fbcfe9b5dba53956c25b59f111f1923f82a4ab1c5ed5 ++
  shaWords 8 0xd807aa9812835b01243185be550c7dc372be5d7480deb1fe9bdc06a7c19bf174 ++
  shaWords 8 0xe49b69c1efbe47860fc19dc6240ca1cc2de92c6f4a7484aa5cb0a9dc76f988da ++
  shaWords 8 0x983e5152a831c66db00327c8bf597fc7c6e00bf3d5a7914706ca635114292967 ++
  shaWords 8 0x27b70a852e1b21384d2c6dfc53380d13650a7354766a0abb81c2c92e92722c85 ++
  shaWords 8 0xa2bfe8a1a81a664bc24b8b70c76c51a3d192e819d6990624f40e3585106aa070 ++
  shaWords 8 0x19a4c1161e376c082748774c34b0bcb5391c0cb34ed8aa4a5b9cca4f682e6ff3 ++
  shaWords 8 0x748f82ee78a5636f84c878148cc7020890befffaa4506cebbef9a3f7c67178f2

/-- What a round of SHA-256 needs: the last four values of each of its two recurrences, newest first, and the sixteen message
words from this round's on. -/
structure ShaState where
  upper : List Nat
  lower : List Nat
  ahead : List Nat
deriving DecidableEq, Repr

/-- The chain at the start: the fractional parts of the square roots of the first eight primes, as two halves (PRESUMED,
notes/assumptions/71.md). -/
def shaStart : List Nat × List Nat :=
  (shaWords 4 0x6a09e667bb67ae853c6ef372a54ff53a, shaWords 4 0x510e527f9b05688c1f83d9ab5be0cd19)

/-- One round with constant `k`. The word that enters the sixteen serves the round sixteen later. -/
def ShaState.round (x : ShaState) (k : Nat) : ShaState :=
  match x.upper, x.lower, x.ahead with
  | [p, q, r, o], [t, u, v, z], w :: ws =>
    let near := nth ws 0
    let far := nth ws 13
    let entering := w + lxor (shaTurns [7, 18] near) (near / 2 ^ 3) + nth ws 8 + lxor (shaTurns [17, 19] far) (far / 2 ^ 10)
    let chosen := lxor v (land t (lxor u v))
    let common := lor (land p q) (land r (lor p q))
    let feed := z + shaTurns [6, 11, 25] t + chosen + k + w
    { upper := [(feed + shaTurns [2, 13, 22] p + common) % 2 ^ 32, p, q, r]
      lower := [(o + feed) % 2 ^ 32, t, u, v]
      ahead := ws ++ [entering % 2 ^ 32] }
  | _, _, _ => x

/-- A block of sixteen words joins the chain: the rounds run on it, and their outcome is added word by word. -/
def shaAbsorb (c : List Nat × List Nat) (block : List Nat) : List Nat × List Nat :=
  let z := shaCubeRoots.foldl ShaState.round { upper := c.1, lower := c.2, ahead := block }
  (c.1.zipWith (fun x y => (x + y) % 2 ^ 32) z.upper, c.2.zipWith (fun x y => (x + y) % 2 ^ 32) z.lower)

/-- A message with its end bit, zeros and bit length, as whole blocks of sixteen words. -/
def shaPadded (bs : List Byte) : List (List Nat) :=
  let blocks := (bs.length + 72) / 64
  let zeros := 64 * blocks - (bs.length + 9)
  let m := (bs ++ 0x80#8 :: List.replicate zeros 0#8 ++ beBytes 8 (8 * bs.length)).toArray
  (List.range blocks).map fun b => (List.range 16).map fun i =>
    (List.range 4).foldl (fun acc k => 256 * acc + (m.getD (64 * b + 4 * i + k) 0#8).toNat) 0

/-- SHA-256 of a byte string, 32 bytes. -/
def sha256 (bs : List Byte) : List Byte :=
  let c := (shaPadded bs).foldl shaAbsorb shaStart
  (c.1 ++ c.2).flatMap (beBytes 4)

end Sys2Proof.Machine
end

