-- ==== Sys2Proof/Syntax.lean ====
section
/-! DEFINITION. The commands of the block: one constructor of Instr per row of the opcode table, with the operands its
event carries. Data that come from outside the device (pins, light, flash, frames, messages) are operands. An operand with a
default may be left out: the event then carries what the default says. -/

namespace Sys2Proof

/-- The three control ports, in priority order (R190). -/
inductive Port where
  | backChannel | spi | i2c
deriving DecidableEq, Repr

/-- A port's number (06_control_ports.md, CTL_LAST_REJECT). -/
def Port.num : Port → Nat
  | .backChannel => 1
  | .spi => 2
  | .i2c => 3

/-- The supply rails (R57). -/
inductive Rail where
  | vddao | vaa | vad | vdd | vddm | vddl | vddio0 | vddio1
deriving DecidableEq, Repr

/-- The two synthesizers. -/
inductive Syn where
  | a | b
deriving DecidableEq, Repr

/-- The levels sampled at a rising edge of RESETB, and the voltages of both banks at it, in mV (R48, R50). -/
structure Straps where
  xin : Bool := false
  addr : Bool := false
  bootsel : Nat := 0
  vddio0 : Nat := 1800
  vddio1 : Nat := 1800
deriving DecidableEq, Repr

/-- What the board and the analogue parts present to the boot sequence (R149): the reference in kHz (0: none), whether
SYNA locks on the boot plan and on the image's plan and SYNB locks, the reference capacitor check, the Arcade path
test, the patch installation, and the flash: its identification, its busy bit, whether it answers 4-byte addresses
only (R155), and its contents as (offset, bytes) pieces. -/
structure BootEnv where
  refKhz : Nat := 25000
  lockBoot : Bool := true
  lockA : Bool := true
  lockB : Bool := true
  capsOk : Bool := true
  arcadeOk : Bool := true
  patchOk : Bool := true
  flashId : List Byte := [0xEF#8, 0x40#8, 0x19#8]
  flashBusy : Bool := false
  flash4 : Bool := false
  flash : List (Nat × List Byte) := []
deriving DecidableEq, Repr

/-- The three copies in which a triplicated setting is held (R93, R453). -/
structure Copies where
  c0 : Word
  c1 : Word
  c2 : Word
deriving DecidableEq, Repr

/-- An upset of a triplicated setting: its register, whether it is the value in force, and its copies (R93, R453). -/
structure Upset where
  addr : Nat
  inForce : Bool
  copies : Copies
deriving DecidableEq, Repr

/-- Where a frame's bytes come from: an SPI or I2C frame as sent, or the head of an inbound queue (R188, R211). -/
inductive PortFrame where
  | spi (bytes : List Byte)
  | i2c (address : Nat) (bytes : List Byte)
  | queue (q : Nat)
deriving DecidableEq, Repr

/-- What a slot presents: for each bank, the 14 decisions of each of its 225 slices (R277), d_i in bit i - 1. -/
structure SlotData where
  decisions : List (List Nat) := []
deriving DecidableEq, Repr

/-- What a scrubber finds in its next line of an on-chip memory (R650 to R652): the memory (SAFE_ECC_LAST's numbers; 0 the
Arcade), the word of the line, the number of bits in error, and, for the spool and the replay buffer, the ring
and sequence number of the packet with its payload as read. -/
structure Scrub where
  memory : Nat
  word : Nat
  errorBits : Nat
  ring : Nat := 0
  seq : Nat := 0
  data : List Byte := []
deriving DecidableEq, Repr

/-- A symbol of the back-channel as its receiver takes it (R531): a code or disparity error, or K28.5. -/
structure BcSymbol where
  error : Bool
  comma : Bool
deriving DecidableEq, Repr

/-- A command of the block: one constructor per row of spec/opcode_table.json, in the table's order. -/
inductive Instr where
  -- supplies, reset, test access
  | registerWrite (port : Port) (addr : Nat) (value : Word)
  -- (a rail's voltage is in mV)
  | coldReset (mv : Nat)
  | supplyFailureReset (rail : Rail) (mv : Nat := 0)
  | vddio1ResetLevel (mv : Nat := 0)
  | supplyGlitch (rail : Rail)
  | brownoutEpisodeStart (rail : Rail) (mv : Nat := 0)
  | brownoutEpisodeEnd (rail : Rail) (mv : Nat := 3300)
  | brownoutLimitExpiry (rail : Rail)
  | resetbReset (straps : Straps)
  | testenHigh (high : Bool := true)
  | extest
  | samplePreload (pins preload : List Bool) (straps : Straps)
  | bypass (opcode : Nat) (straps : Straps) (tdi : List Bool := [])
  | testAccessPortReset (straps : Straps)
  | softwareReset (key : Word)
  -- boot and NVM
  | bootSequence (env : BootEnv)
  | flashBusyTimeout
  | referenceWaitTimeout
  | lockTimeout (syn : Syn)
  | bootWatchdogExpiry
  | bootRetry
  | nvmUnlock (key : Word)
  | nvmRead
  | nvmProgram
  | nvmEraseSector
  | storeSeeds
  | nvmCommandDone (verified : Bool)
  -- clocks
  | synLock (syn : Syn)
  | lossOfLock (syn : Syn)
  | refLost
  | refReturn
  | autoRelockAttempt (syn : Syn)
  | refMeasUpdate (khz : Nat)
  | commit (syn : Syn)
  | commitAtBeat (syn : Syn)
  | relock (syn : Syn)
  | singleUpsetCorrected (upset : Upset)
  | voteFailure (addr : Nat) (inForce : Bool) (copies : Copies)
  -- structure image
  | stageData (value : Word)
  | startFull
  | startOverlay
  | abort
  | loadChecksComplete (errors : List (Nat × Nat) := []) (patchOk : Bool := true)
  -- control ports
  | cmdNop (frame : PortFrame)
  | cmdWriteIncrementing (frame : PortFrame)
  | cmdWriteFixed (frame : PortFrame)
  | cmdReadIncrementing (frame : PortFrame)
  | cmdReadFixed (frame : PortFrame)
  | frameTruncated (port : Port) (bytes : List Byte) (restarted : Bool)
  | i2cStatus
  | cmd (body : List Byte)
  | ctlLockTake (port : Port) (blocks : Word)
  | ctlLockFree (port : Port) (blocks : Word)
  | ctlLockBreak (port : Port) (key : Word)
  | irqbRetrigger
  -- pixel array and shutter
  | runTakeUp
  | runStop
  | readoutStart
  | readoutEnd
  | rowSlot (data : SlotData)
  | subPulse (row : Nat)
  | globalIntegrationStart
  | transferT1
  | transferT2
  | triggerPinEdge (pin : Nat) (rising : Bool) (eighth since : Nat)
  | badgerSelfTest (reported : Bool)
  | badgerMismatch (bit : Nat)
  | rdoRetire (value : Word)
  | calSnapshot
  | windowRowAvailable (window row : Nat) (errors : List (Nat × Nat))
  -- near-pixel compute
  | tapComplete (prog tap : Nat)
  | runStart (prog : Nat)
  | runDeadline (prog : Nat)
  | npcNop (prog : Nat)
  | setmode (prog : Nat)
  | salu (prog : Nat)
  | salui (prog : Nat)
  | get (prog : Nat)
  | ld (prog : Nat)
  | st (prog : Nat)
  | loop (prog : Nat)
  | br (prog : Nat)
  | npcEnd (prog : Nat)
  | mmul (prog : Nat)
  | post (prog : Nat)
  | discard (prog : Nat)
  | tload (prog : Nat)
  | emit (prog : Nat)
  | waitev (prog : Nat)
  | sigev (prog : Nat)
  | resume
  | npcDbgEnd
  | tensorWrite (addr : Nat) (value : Word)
  -- Crossroads
  | triggerUnitFire (unit : Nat)
  | forcedTrigger (unit : Nat)
  | holdoffExpiry (unit : Nat)
  | triggerUnitArm (unit : Nat) (value : Word)
  | triggerUnitConfigWrite (unit : Nat) (reg : Nat) (value : Word)
  | directRouteRequest (route : Nat)
  | startAGlobalExposure (since : Nat)
  | startAFrame (since : Nat)
  | freezeTheArcade
  | rearmTheArcadeRecorder
  | startAConversion (core : Nat)
  | markMetadata (mark : Nat)
  | raiseInterrupt (bit : Nat)
  | driveSyncFire (byTask : Bool)
  | driveSyncArm
  | releaseSyncArm
  | capture
  | signalPinEngine (engine : Nat)
  | setComputeFlag (flag : Nat)
  | armTriggerUnit (unit : Nat)
  | snapshotTheEventCounters (byTask : Bool)
  | appendASoftwareEntry (port : Option Port) (value : Word)
  -- (`elapsed` since the reference symbol of a message: in 1/1 024 µs)
  | timeSet (time elapsed : Nat)
  | timeAdd (offset elapsed : Nat)
  | timeRate (inc : Word)
  | timeCtrlSet
  | timeCtrlAdd
  | ppsArm
  | ppsLoad (eighth elapsed : Nat)
  | timeNowCapture (port : Port)
  | periodicTimer (timer : Nat)
  | syncArming (low : Bool) (eighth : Nat)
  | syncFireEdge (eighth : Nat)
  | syncFireRise (width eighth : Nat)
  | firePulseEnd
  | badWidthTimeout
  | compensatedRelease (since : Nat)
  | autoRelease
  -- Arcade
  | arcRearm (region : Nat)
  | arcFreeze (region : Nat)
  | arcReplay (region : Nat)
  | arcEndPass (region : Nat)
  | arcFrameComplete (region : Nat)
  | replayFrameOffer (region : Nat) (errors : List (Nat × Nat) := [])
  | arcHostFetch (line : Nat)
  | arcHostFetchDone (errors : List (Nat × Nat) := [])
  | arcScrub (word errorBits : Nat)
  | sramScrub (found : Scrub)
  | scrubDeferralExpiry (found : Scrub)
  -- link
  | unitHandedToStriper (ahead : Nat := 0)
  | marker
  | ack (lsn : Nat) (crc : Nat := Machine.interjectionCrc lsn)
  | nak (lsn : Nat) (crc : Nat := Machine.interjectionCrc lsn)
  | replayTimeout
  | bcAlignment (symbols : List BcSymbol)
  | bcSilenceTimeout
  | bcMessageDiscarded (message : List Byte) (codeError : Bool)
  | caps (body : List Byte)
  | stepResult (body : List Byte)
  | pm (body : List Byte)
  | laneReport (body : List Byte)
  | echo (body : List Byte) (elapsed : Nat)
  | renegotiate
  | linkEnableWrite (en : Bool)
  | stepDrained
  | stepDrainTimeout
  | stepResultTimeout
  | wakePattern
  | wakeOnData
  | txDelayLineLoss (lane : Nat)
  | probeStart (lane : Nat)
  | probeEnd (lane : Nat)
  | restore
  -- housekeeping
  | hkStart (core : Nat)
  | hkStop (core : Nat)
  | hkPinStart (core : Nat)
  | hkConversionStart (core : Nat)
  | hkPeriodicGrid (core : Nat)
  | hkResult (core decision : Nat)
  | hkPowerDown (core : Nat)
  | hkCalDue (core decision : Nat)
  | hkCalForced (core decision : Nat)
  | monitorPacketAge
  | interleaveChange
  -- pin engines
  | pioStep (engine pins : Nat)
  | pioNop (engine : Nat)
  | pioBr (engine : Nat)
  | await (engine : Nat)
  | rep (engine : Nat)
  | setv (engine : Nat)
  | move (engine : Nat)
  | shift (engine : Nat)
  | xchg (engine : Nat)
  | pioLoad (engine : Nat)
  | store (engine : Nat)
  | flag (engine : Nat)
  | addv (engine : Nat)
  | stallEnd (engine pins : Nat)
  | vectoredJump (engine pins : Nat)
  | pioRun (mask : Nat)
  | pioRestart (mask : Nat)
  | pioSync (mask : Nat)
  | pioPcWrite (engine : Nat) (value : Word)
  | inject (engine : Nat) (word : Word)
  | pioTxfWrite (engine : Nat) (value : Word)
  | pioRxfRead (engine : Nat)
  -- power
  | pwrCmd (value : Word)
  | streamToReady
  | readyToStandby
  | standbyToSleep
  | sleepToStandby
  | standbyToReady
  | readyToStream
  | enterOff
  | trigWake (pin : Nat) (rising : Bool)
  | scsbWake
  | blockEnableWrite (value : Word)
  -- safety and health
  | faultbHalfPeriod
  | thermalStale
  | eventLogAge
  | faultbTest (on : Bool)
  | cntClear (mask : Word)
  | counterLiveCapture (port : Port) (counter : Nat)
  -- further rows
  | resetbLow
  | reservedOpFrame (frame : PortFrame)
  | illegalInstruction (prog : Nat)
  | nvmCmdReservedOp (op : Nat)
  | arcCmdReservedOp (op region : Nat)
  | interjectionDiscarded (lsn : Nat := 0) (crc : Nat := 0) (codeError : Bool := true)
  | pmDrainTimeout
  | readNotServed (frame : PortFrame)
  | slewAbsorbed
deriving DecidableEq, Repr

end Sys2Proof
end

