-- ==== Sys2Proof/Decode.lean ====
section
/-! DEFINITION. The words of commands. The opcode table gives no row any bits: commands reach this block from outside
it, so no word spells one. -/

namespace Sys2Proof

/-- The command that the word `w` of `nbits` bits spells by the table's bits: none, since no row gives bits. -/
def decodeTableWord (_nbits _w : Nat) : Option Instr := none

end Sys2Proof
end

