-- ==== Sys2Proof/Config.lean ====
section
/-! DEFINITION. What the spec leaves open: values without a body, so that nothing can be proved of a particular one,
and the fill of memory that nothing has written. -/

namespace Sys2Proof.Config

/-- A value the spec does not state, one for each count of the model's own counter (State.fresh). -/
opaque freeValue : Nat → Nat

/-- The part of a pin stamp that the spec fixes without a number (R440; 23, insertion delays): the insertion delay of PIX
against SYS less the ball-to-sampler delay that the device subtracts, in units of 2^-24 ns modulo 2^72. -/
opaque pinSkew : Nat

/-- The lines of an on-chip memory whose size the spec does not give: supervisor RAM, the merge buffer and the descriptor stores
(R651, R652), less one. -/
opaque sramLines : Nat → Nat

/-- What a byte of the Arcade or of tensor memory reads as before anything has written it
(DESIGN CHOICE, notes/assumptions/5.md: the spec gives no content after power-on). -/
def memFill : Byte := 0#8

end Sys2Proof.Config
end

