-- ==== Sys2Proof/Machine/Sparse.lean ====
section
/-! DEFINITION. Sparse data by key: a list of (key, value) pairs with strictly rising keys. Memories, the register
file and per-object tables are kept in this one canonical form. -/

namespace Sys2Proof.Machine

/-- The value listed for a key, if any: the first entry with that key. -/
def Sparse.find {α : Type} (t : List (Nat × α)) (k : Nat) : Option α :=
  match t with
  | [] => none
  | (j, v) :: r => if j = k then some v else Sparse.find r k

/-- `t` with the entry of `k` removed. -/
def Sparse.erase {α : Type} (t : List (Nat × α)) (k : Nat) : List (Nat × α) := t.filter fun e => e.1 != k

/-- `t` with `v` listed for `k`. -/
def Sparse.insert {α : Type} (t : List (Nat × α)) (k : Nat) (v : α) : List (Nat × α) :=
  match t with
  | [] => [(k, v)]
  | (j, w) :: r =>
    if j = k then (k, v) :: r else if k < j then (k, v) :: (j, w) :: r else (j, w) :: Sparse.insert r k v

/-- The value at a key, `d` where nothing is listed. -/
def Sparse.get {α : Type} (d : α) (t : List (Nat × α)) (k : Nat) : α := (Sparse.find t k).getD d

/-- `t` with `v` at `k`: an entry equal to what an unlisted key reads as is not listed. -/
def Sparse.put {α : Type} [DecidableEq α] (d : α) (t : List (Nat × α)) (k : Nat) (v : α) : List (Nat × α) :=
  if v = d then Sparse.erase t k else Sparse.insert t k v

/-- Keys strictly rise, from `lo` on, and no entry equals what `d` says an unlisted key reads as. -/
def Sparse.wfFrom {α : Type} [DecidableEq α] (d : Nat → α) (lo : Nat) (t : List (Nat × α)) : Bool :=
  match t with
  | [] => true
  | (j, v) :: r => decide (lo ≤ j) && !decide (v = d j) && Sparse.wfFrom d (j + 1) r

/-- The canonical form. -/
def Sparse.wf {α : Type} [DecidableEq α] (d : Nat → α) (t : List (Nat × α)) : Bool := Sparse.wfFrom d 0 t

end Sys2Proof.Machine
end

