-- ==== Sys2Proof/Machine/Regs.lean ====
section
/-! DEFINITION. The register space: addresses, fields and access codes, from the register tables of every chapter
(R4, R5, R194). A name is the spec's own register or field name; an index follows as an argument. -/

namespace Sys2Proof.Machine

/-- A field: byte address of its register, lowest bit, width. -/
structure Fld where
  addr : Nat
  lo : Nat
  w : Nat
deriving DecidableEq, Repr

/-- The boundary at which RWB fields of a register come into force (R6). -/
inductive Boundary where
  | none | frame | commitA | commitB
deriving DecidableEq, Repr

/-- One row of the register map: base address, (stride, count) of each index, reset value (R11), and the masks of the
fields that a write stores, clears (W1C) or acts on (W1S, WO), and of the fields that wait for a boundary (RWB). -/
structure RegRow where
  base : Nat
  dims : List (Nat × Nat)
  reset : Nat
  rw : Nat
  w1c : Nat
  act : Nat
  rwb : Nat
  boundary : Boundary
deriving DecidableEq, Repr

/-- The byte offset `o` falls on one of the indexed registers. -/
def offsetIn : List (Nat × Nat) → Nat → Bool
  | [], o => o == 0
  | (s, n) :: ds, o => decide (o / s < n) && offsetIn ds (o % s)

/-- The row describes the register at byte address `a`. -/
def RegRow.covers (r : RegRow) (a : Nat) : Bool := decide (r.base ≤ a) && offsetIn r.dims (a - r.base)

def aSYS_ID : Nat := 0x000000
def aSYS_STEP : Nat := 0x000004
def aSYS_ROM_VER : Nat := 0x000008
def aSYS_SERIAL_LO : Nat := 0x00000C
def aSYS_SERIAL_HI : Nat := 0x000010
def aSYS_GRADE : Nat := 0x000014
def aSYS_BOOT_REPORT : Nat := 0x000018
def aSYS_BOOT_PREV : Nat := 0x00001C
def aSYS_RESET : Nat := 0x000020
def aSYS_FLASH_ID : Nat := 0x000024
def aSYS_BOOT_TIME : Nat := 0x000028
def aSYS_IRQ_STAT : Nat := 0x000100
def aSYS_IRQ_EN : Nat := 0x000104
def aSYS_SRC_IRQ_STAT : Nat := 0x000108
def aSYS_SRC_IRQ_EN : Nat := 0x00010C
def aCLK_STATUS : Nat := 0x010000
def aCLK_REF_MEAS : Nat := 0x010004
def aCLK_SYNA_PLAN : Nat := 0x010008
def aCLK_SYNB_PLAN : Nat := 0x01000C
def aCLK_SYNA_CTRL : Nat := 0x010010
def aCLK_SYNB_CTRL : Nat := 0x010014
def aCLK_BEAT_A : Nat := 0x010018
def aCLK_BEAT_B : Nat := 0x01001C
def aCLK_IRQ_STAT : Nat := 0x010020
def aCLK_IRQ_EN : Nat := 0x010024
def aCLK_SEU_COUNT : Nat := 0x010028
def aCLK_SYNA_OUT_CFG (n : Nat) : Nat := 0x010100 + 16 * n
def aCLK_SYNA_OUT_DLY (n : Nat) : Nat := 0x010104 + 16 * n
def aCLK_SYNB_OUT_CFG (n : Nat) : Nat := 0x010200 + 16 * n
def aCLK_SYNB_OUT_DLY (n : Nat) : Nat := 0x010204 + 16 * n
def aPWR_CMD : Nat := 0x020000
def aPWR_STATUS : Nat := 0x020004
def aPWR_WAKE : Nat := 0x020008
def aPWR_WAKE_SRC : Nat := 0x02000C
def aPWR_BLOCK_EN : Nat := 0x020010
def aPWR_LAST_STEP : Nat := 0x020014
def aPWR_IRQ_STAT : Nat := 0x020018
def aPWR_IRQ_EN : Nat := 0x02001C
def aCFG_STATUS : Nat := 0x030000
def aCFG_ACTIVE_ID : Nat := 0x030004
def aCFG_ACTIVE_VERSION : Nat := 0x030008
def aCFG_BASE_ID : Nat := 0x03000C
def aCFG_STAGE_ADDR : Nat := 0x030010
def aCFG_STAGE_DATA : Nat := 0x030014
def aCFG_LOAD_CTRL : Nat := 0x030018
def aCFG_OVL_FRAME : Nat := 0x03001C
def aCFG_LOAD_STATUS : Nat := 0x030020
def aCFG_APPLY_FRAME : Nat := 0x030024
def aCFG_ADMISSION : Nat := 0x030028
def aCFG_IRQ_STAT : Nat := 0x03002C
def aCFG_IRQ_EN : Nat := 0x030030
def aNVM_STATUS : Nat := 0x040000
def aNVM_ADDR : Nat := 0x040004
def aNVM_RDATA : Nat := 0x040008
def aNVM_WDATA : Nat := 0x04000C
def aNVM_CMD : Nat := 0x040010
def aNVM_UNLOCK : Nat := 0x040014
def aNVM_SEED_SEQ_A : Nat := 0x040018
def aNVM_SEED_SEQ_B : Nat := 0x04001C
def aNVM_IRQ_STAT : Nat := 0x040020
def aNVM_IRQ_EN : Nat := 0x040024
def aCTL_PORT_CFG : Nat := 0x050000
def aCTL_LOCK_TAKE : Nat := 0x050004
def aCTL_LOCK_FREE : Nat := 0x050008
def aCTL_LOCK_BREAK : Nat := 0x05000C
def aCTL_OWNER_LO : Nat := 0x050010
def aCTL_OWNER_HI : Nat := 0x050014
def aCTL_LAST_REJECT : Nat := 0x050018
def aCTL_CONFLICTS : Nat := 0x05001C
def aCTL_IRQ_STAT : Nat := 0x050020
def aCTL_IRQ_EN : Nat := 0x050024
def aSHT_CTRL : Nat := 0x100000
def aSHT_STATUS : Nat := 0x100004
def aSHT_ROW_TIME : Nat := 0x100008
def aSHT_FRAME_PERIOD : Nat := 0x10000C
def aSHT_EXP (n : Nat) : Nat := 0x100010 + 4 * n
def aSHT_GAIN : Nat := 0x100020
def aSHT_TRIG_CFG : Nat := 0x100024
def aSHT_TRIG_IGNORED : Nat := 0x100028
def aSHT_GOV_CFG : Nat := 0x10002C
def aSHT_GOV_METER : Nat := 0x100030
def aSHT_GOV_BANKS : Nat := 0x100034
def aSHT_GOV_MIN : Nat := 0x100038
def aSHT_GOV_MAX : Nat := 0x10003C
def aSHT_GOV_RATIO : Nat := 0x100040
def aSHT_LIVE_EXP (n : Nat) : Nat := 0x100044 + 4 * n
def aSHT_LIVE_LAG : Nat := 0x100054
def aSHT_LIVE_TIMING : Nat := 0x100058
def aSHT_FRAME_NUM : Nat := 0x10005C
def aSHT_IRQ_STAT : Nat := 0x100060
def aSHT_IRQ_EN : Nat := 0x100064
def aWIN_DESC (n : Nat) (m : Nat) : Nat := 0x110000 + 32 * n + 4 * m
def aWIN_ENABLE (n : Nat) : Nat := 0x118000 + 4 * n
def aWIN_LIVE_EN (n : Nat) : Nat := 0x118080 + 4 * n
def aWIN_STATUS : Nat := 0x118100
def aWIN_CUT_LOAD : Nat := 0x118104
def aWIN_IRQ_STAT : Nat := 0x118108
def aWIN_IRQ_EN : Nat := 0x11810C
def aRDO_STATUS : Nat := 0x120000
def aRDO_MEAN_CFG : Nat := 0x120004
def aRDO_EVT_CFG : Nat := 0x120008
def aRDO_EVT_LEVEL : Nat := 0x12000C
def aRDO_TEST_CFG : Nat := 0x120010
def aRDO_TEST_ROWS : Nat := 0x120014
def aRDO_RETIRE : Nat := 0x120018
def aRDO_RETIRE_RESULT : Nat := 0x12001C
def aRDO_FROZEN : Nat := 0x120020
def aRDO_DEGRADED : Nat := 0x120024
def aRDO_SELFTEST : Nat := 0x120028
def aRDO_IRQ_STAT : Nat := 0x12002C
def aRDO_IRQ_EN : Nat := 0x120030
def aRDO_BANK_STATE (n : Nat) : Nat := 0x120100 + 4 * n
def aRDO_BANK_MEAN (n : Nat) : Nat := 0x120200 + 4 * n
def aRDO_BANK_RET (n : Nat) (m : Nat) : Nat := 0x121000 + 32 * n + 4 * m
def aRDO_BANK_DEAD (n : Nat) (m : Nat) : Nat := 0x122000 + 32 * n + 4 * m
def aCAL_CTRL : Nat := 0x130000
def aCAL_STATUS : Nat := 0x130004
def aCAL_ALERT : Nat := 0x130008
def aCAL_ALERT_BANKS : Nat := 0x13000C
def aCAL_COUNTS : Nat := 0x130010
def aCAL_SEL : Nat := 0x130014
def aCAL_SNAP_STATUS : Nat := 0x130018
def aCAL_SNAP_TRIM : Nat := 0x13001C
def aCAL_SNAP_STEP : Nat := 0x130020
def aCAL_SNAP_W (n : Nat) : Nat := 0x130024 + 4 * n
def aCAL_IRQ_STAT : Nat := 0x130040
def aCAL_IRQ_EN : Nat := 0x130044
def aCAL_BANK_RES (n : Nat) : Nat := 0x130100 + 4 * n
def aCAL_BANK_AGE (n : Nat) : Nat := 0x130200 + 4 * n
def aCAL_BANK_SRES (n : Nat) (m : Nat) : Nat := 0x131000 + 256 * n + 4 * m
def aPIPE_CTRL : Nat := 0x140000
def aPIPE_BLACK : Nat := 0x140004
def aPIPE_DEFECT : Nat := 0x140008
def aPIPE_MERGE : Nat := 0x14000C
def aPIPE_FMT : Nat := 0x140010
def aPIPE_STATUS : Nat := 0x140014
def aPIPE_DEFECT_COUNT : Nat := 0x140018
def aPIPE_LIVE_RATIO (n : Nat) : Nat := 0x14001C + 4 * n
def aPIPE_IRQ_STAT : Nat := 0x140028
def aPIPE_IRQ_EN : Nat := 0x14002C
def aPIPE_CURVE_KNEE (n : Nat) (m : Nat) : Nat := 0x140100 + 32 * n + 4 * m
def aPIPE_BL (n : Nat) (m : Nat) (k : Nat) : Nat := 0x141000 + 64 * n + 16 * m + 4 * k
def aNPC_CTRL : Nat := 0x200000
def aNPC_STATUS : Nat := 0x200004
def aNPC_PROG_EN : Nat := 0x200008
def aNPC_LIVE_PROG_EN : Nat := 0x20000C
def aNPC_INVENTORY : Nat := 0x200010
def aNPC_IRQ_STAT : Nat := 0x200014
def aNPC_IRQ_EN : Nat := 0x200018
def aNPC_DBG : Nat := 0x20001C
def aNPC_DBG_HALTED : Nat := 0x200020
def aNPC_FLAGS : Nat := 0x200024
def aNPC_PARAM (n : Nat) : Nat := 0x200040 + 4 * n
def aNPC_PROG_STAT (n : Nat) : Nat := 0x200100 + 16 * n
def aNPC_PROG_FRAME (n : Nat) : Nat := 0x200104 + 16 * n
def aNPC_PROG_TIME (n : Nat) : Nat := 0x200108 + 16 * n
def aNPC_PROG_SLACK (n : Nat) : Nat := 0x20010C + 16 * n
def aNPC_EXC_INFO (n : Nat) : Nat := 0x200200 + 32 * n
def aNPC_EXC_LOOP (n : Nat) (m : Nat) : Nat := 0x200204 + 32 * n + 4 * m
def aNPC_EXC_ADDR (n : Nat) : Nat := 0x200210 + 32 * n
def aNPC_EXC_FRAME (n : Nat) : Nat := 0x200214 + 32 * n
def aEVF_SW : Nat := 0x300000
def aEVF_TASK_FIRE_LO : Nat := 0x300004
def aEVF_TASK_FIRE_HI : Nat := 0x300008
def aEVF_ROW_MARK : Nat := 0x30000C
def aEVF_SRC_LEVEL (n : Nat) : Nat := 0x300010 + 4 * n
def aEVF_CHAN_LEVEL : Nat := 0x30001C
def aEVF_CAPTURE_LO : Nat := 0x300020
def aEVF_CAPTURE_HI : Nat := 0x300024
def aEVF_TASK_DROPPED : Nat := 0x300028
def aEVF_SEU : Nat := 0x30002C
def aEVF_IRQ_STAT : Nat := 0x300030
def aEVF_IRQ_EN : Nat := 0x300034
def aEVF_SYNC_CFG : Nat := 0x300040
def aEVF_SYNC_CTRL : Nat := 0x300044
def aEVF_SYNC_STAT : Nat := 0x300048
def aEVF_SYNC_STAMP_LO : Nat := 0x30004C
def aEVF_SYNC_STAMP_HI : Nat := 0x300050
def aEVF_FIRE_DELAY (n : Nat) : Nat := 0x300060 + 4 * n
def aEVF_TU_CTRL (n : Nat) : Nat := 0x300100 + 64 * n
def aEVF_TU_PATTERN (n : Nat) : Nat := 0x300104 + 64 * n
def aEVF_TU_DONTCARE (n : Nat) : Nat := 0x300108 + 64 * n
def aEVF_TU_QUAL_LO (n : Nat) : Nat := 0x30010C + 64 * n
def aEVF_TU_QUAL_HI (n : Nat) : Nat := 0x300110 + 64 * n
def aEVF_TU_STAT (n : Nat) : Nat := 0x300118 + 64 * n
def aEVF_TU_STAMP_LO (n : Nat) : Nat := 0x300120 + 64 * n
def aEVF_TU_STAMP_HI (n : Nat) : Nat := 0x300124 + 64 * n
def aEVF_COALESCE (n : Nat) : Nat := 0x300400 + 4 * n
def aTIME_NOW_LO : Nat := 0x310000
def aTIME_NOW_HI : Nat := 0x310004
def aTIME_INC : Nat := 0x310008
def aTIME_STATUS : Nat := 0x31000C
def aTIME_CTRL : Nat := 0x310010
def aTIME_LOAD_LO : Nat := 0x310014
def aTIME_LOAD_HI : Nat := 0x310018
def aTIME_SLEW_LIMIT : Nat := 0x31001C
def aTIME_PATH_DELAY : Nat := 0x310020
def aTIME_PPS_LO : Nat := 0x310024
def aTIME_PPS_HI : Nat := 0x310028
def aTIME_RX_LO : Nat := 0x31002C
def aTIME_RX_HI : Nat := 0x310030
def aTIME_TIMER_PERIOD (n : Nat) : Nat := 0x310040 + 16 * n
def aTIME_TIMER_PHASE (n : Nat) : Nat := 0x310044 + 16 * n
def aARC_STATUS : Nat := 0x320000
def aARC_CMD : Nat := 0x320004
def aARC_CMD_RESULT : Nat := 0x320008
def aARC_REPLAY_RANGE : Nat := 0x32000C
def aARC_HOST_ADDR : Nat := 0x320010
def aARC_HOST_STATUS : Nat := 0x320014
def aARC_SCRUB : Nat := 0x320018
def aARC_ECC : Nat := 0x32001C
def aARC_IRQ_STAT : Nat := 0x320020
def aARC_IRQ_EN : Nat := 0x320024
def aARC_HOST_BUF (n : Nat) : Nat := 0x320040 + 4 * n
def aARC_REG_STATE (n : Nat) : Nat := 0x320100 + 32 * n
def aARC_REG_TRIG_FRAME_LO (n : Nat) : Nat := 0x320104 + 32 * n
def aARC_REG_TRIG_FRAME_HI (n : Nat) : Nat := 0x320108 + 32 * n
def aARC_REG_TRIG_STAMP_LO (n : Nat) : Nat := 0x32010C + 32 * n
def aARC_REG_TRIG_STAMP_HI (n : Nat) : Nat := 0x320110 + 32 * n
def aARC_REG_COUNTS (n : Nat) : Nat := 0x320114 + 32 * n
def aARC_REG_HELD (n : Nat) : Nat := 0x320118 + 32 * n
def aARC_REG_DROPS (n : Nat) : Nat := 0x32011C + 32 * n
def aRING_DESC0 (n : Nat) : Nat := 0x330000 + 64 * n
def aRING_DESC1 (n : Nat) : Nat := 0x330004 + 64 * n
def aRING_CLASS (n : Nat) : Nat := 0x330008 + 64 * n
def aRING_CTRL (n : Nat) : Nat := 0x33000C + 64 * n
def aRING_SEQ (n : Nat) : Nat := 0x330010 + 64 * n
def aRING_FRAMES (n : Nat) : Nat := 0x330014 + 64 * n
def aRING_FILL (n : Nat) : Nat := 0x330018 + 64 * n
def aRING_LAST_FRAME (n : Nat) : Nat := 0x33001C + 64 * n
def aRING_INQ_DESC (n : Nat) : Nat := 0x334000 + 16 * n
def aRING_INQ_STAT (n : Nat) : Nat := 0x334004 + 16 * n
def aRING_STATUS : Nat := 0x334100
def aRING_IRQ_STAT : Nat := 0x334104
def aRING_IRQ_EN : Nat := 0x334108
def aRING_FILL_SRC (n : Nat) : Nat := 0x334140 + 4 * n
def aRING_DROP_SRC (n : Nat) : Nat := 0x334160 + 4 * n
def aLNK_CTRL : Nat := 0x340000
def aLNK_STATUS : Nat := 0x340004
def aLNK_POLARITY : Nat := 0x340008
def aLNK_REPLAY_CFG : Nat := 0x34000C
def aLNK_LSN : Nat := 0x340010
def aLNK_REPLAY_FILL : Nat := 0x340014
def aLNK_COUNTS : Nat := 0x340018
def aLNK_DOWNSHIFT : Nat := 0x34001C
def aLNK_PEER : Nat := 0x340020
def aLNK_MARKER : Nat := 0x340024
def aLNK_IRQ_STAT : Nat := 0x340028
def aLNK_IRQ_EN : Nat := 0x34002C
def aLNK_LANE_CTRL : Nat := 0x340030
def aLNK_LANE_STATUS : Nat := 0x340034
def aLNK_CAPACITY : Nat := 0x340038
def aLNK_LANE_COUNTS : Nat := 0x34003C
def aHKA_CTRL : Nat := 0x350000
def aHKA_STATUS : Nat := 0x350004
def aHKA_CORE_CFG (n : Nat) : Nat := 0x350010 + 16 * n
def aHKA_CORE_CTRL (n : Nat) : Nat := 0x350018 + 16 * n
def aHKA_CORE_SCAN (n : Nat) : Nat := 0x35001C + 16 * n
def aHKA_CORE_COUNT (n : Nat) : Nat := 0x350030 + 4 * n
def aHKA_RESULT (n : Nat) : Nat := 0x350040 + 4 * n
def aHKA_WIN_CFG (n : Nat) : Nat := 0x3500C0 + 16 * n
def aHKA_WIN_LIMITS (n : Nat) : Nat := 0x3500C4 + 16 * n
def aHKA_WIN_STAT (n : Nat) : Nat := 0x3500C8 + 16 * n
def aHKA_OW_CFG : Nat := 0x350140
def aHKA_OW_STATUS : Nat := 0x350144
def aHKA_BUF_STATUS : Nat := 0x350148
def aHKA_CAL : Nat := 0x35014C
def aHKA_IRQ_STAT : Nat := 0x350150
def aHKA_IRQ_EN : Nat := 0x350154
def aPIO_CTRL : Nat := 0x360000
def aPIO_STATUS : Nat := 0x360004
def aPIO_PIN_IN : Nat := 0x360008
def aPIO_PIN_OUT : Nat := 0x36000C
def aPIO_IRQ_STAT : Nat := 0x360010
def aPIO_IRQ_EN : Nat := 0x360014
def aPIO_ENG_PC (n : Nat) : Nat := 0x360100 + 64 * n
def aPIO_ENG_DIV (n : Nat) : Nat := 0x360104 + 64 * n
def aPIO_ENG_INJECT (n : Nat) : Nat := 0x360108 + 64 * n
def aPIO_ENG_STAT (n : Nat) : Nat := 0x36010C + 64 * n
def aPIO_ENG_TXF (n : Nat) : Nat := 0x360110 + 64 * n
def aPIO_ENG_COUNTS (n : Nat) : Nat := 0x36012C + 64 * n
def aSAFE_FAULT_STAT : Nat := 0x370000
def aSAFE_FAULT_EN : Nat := 0x370004
def aSAFE_FAULTB : Nat := 0x370008
def aSAFE_SUPPLY : Nat := 0x37000C
def aSAFE_BROWNOUT_LIMIT : Nat := 0x370010
def aSAFE_EPISODES : Nat := 0x370014
def aSAFE_EPISODE_LAST : Nat := 0x370018
def aSAFE_BADGER : Nat := 0x37001C
def aSAFE_SEU : Nat := 0x370020
def aSAFE_ECC : Nat := 0x370024
def aSAFE_ECC_LAST : Nat := 0x370028
def aSAFE_THERMAL : Nat := 0x37002C
def aSAFE_THERMAL_STAT : Nat := 0x370030
def aSAFE_LOG_CFG : Nat := 0x370034
def aSAFE_LOG_SW : Nat := 0x370038
def aSAFE_LOG_STATUS : Nat := 0x37003C
def aSAFE_IRQ_STAT : Nat := 0x370040
def aSAFE_IRQ_EN : Nat := 0x370044
def aSAFE_LOG_LAST (n : Nat) : Nat := 0x370100 + 4 * n
def aCNT_CTRL : Nat := 0x380000
def aCNT_SNAP_STAMP_LO : Nat := 0x380004
def aCNT_SNAP_STAMP_HI : Nat := 0x380008
def aCNT_OVF : Nat := 0x38000C
def aCNT_CLEAR : Nat := 0x380010
def aCNT_IRQ_STAT : Nat := 0x380014
def aCNT_IRQ_EN : Nat := 0x380018
def aCNT_CFG (n : Nat) : Nat := 0x380100 + 4 * n
def aCNT_LIVE (n : Nat) (m : Nat) : Nat := 0x380200 + 8 * n + 4 * m
def aCNT_SNAP (n : Nat) (m : Nat) : Nat := 0x380400 + 8 * n + 4 * m

def SYS_ROM_VER_patched : Fld := ⟨aSYS_ROM_VER, 16, 1⟩
def SYS_BOOT_REPORT_cause : Fld := ⟨aSYS_BOOT_REPORT, 0, 8⟩
def SYS_BOOT_REPORT_primary_cause : Fld := ⟨aSYS_BOOT_REPORT, 8, 8⟩
def SYS_BOOT_REPORT_attempts : Fld := ⟨aSYS_BOOT_REPORT, 16, 2⟩
def SYS_BOOT_REPORT_minimal : Fld := ⟨aSYS_BOOT_REPORT, 18, 1⟩
def SYS_BOOT_REPORT_secondary : Fld := ⟨aSYS_BOOT_REPORT, 19, 1⟩
def SYS_BOOT_REPORT_host_push : Fld := ⟨aSYS_BOOT_REPORT, 20, 1⟩
def SYS_BOOT_REPORT_reset_src : Fld := ⟨aSYS_BOOT_REPORT, 21, 3⟩
def SYS_BOOT_REPORT_rail : Fld := ⟨aSYS_BOOT_REPORT, 24, 3⟩
def SYS_BOOT_REPORT_seed_bank : Fld := ⟨aSYS_BOOT_REPORT, 27, 1⟩
def SYS_BOOT_REPORT_seed_factory : Fld := ⟨aSYS_BOOT_REPORT, 28, 1⟩
def SYS_BOOT_REPORT_seed_torn : Fld := ⟨aSYS_BOOT_REPORT, 29, 1⟩
def SYS_BOOT_REPORT_patched : Fld := ⟨aSYS_BOOT_REPORT, 30, 1⟩
def SYS_BOOT_REPORT_complete : Fld := ⟨aSYS_BOOT_REPORT, 31, 1⟩
def SYS_FLASH_ID_jedec : Fld := ⟨aSYS_FLASH_ID, 0, 24⟩
def SYS_FLASH_ID_valid : Fld := ⟨aSYS_FLASH_ID, 24, 1⟩
def SYS_SRC_IRQ_STAT_boot_done : Fld := ⟨aSYS_SRC_IRQ_STAT, 0, 1⟩
def SYS_SRC_IRQ_STAT_minimal : Fld := ⟨aSYS_SRC_IRQ_STAT, 1, 1⟩
def CLK_STATUS_ref_present : Fld := ⟨aCLK_STATUS, 1, 1⟩
def CLK_STATUS_syna_lock : Fld := ⟨aCLK_STATUS, 2, 1⟩
def CLK_STATUS_synb_lock : Fld := ⟨aCLK_STATUS, 3, 1⟩
def CLK_STATUS_sys_src : Fld := ⟨aCLK_STATUS, 4, 1⟩
def CLK_REF_MEAS_ref_khz : Fld := ⟨aCLK_REF_MEAS, 0, 16⟩
def CLK_BEAT_A_beat_half : Fld := ⟨aCLK_BEAT_A, 0, 20⟩
def CLK_BEAT_B_beat_half : Fld := ⟨aCLK_BEAT_B, 0, 20⟩
def CLK_IRQ_STAT_commit_rejected : Fld := ⟨aCLK_IRQ_STAT, 6, 1⟩
def CLK_IRQ_STAT_seu : Fld := ⟨aCLK_IRQ_STAT, 7, 1⟩
def CLK_IRQ_STAT_ref_lost : Fld := ⟨aCLK_IRQ_STAT, 8, 1⟩
def CLK_SEU_COUNT_corrected : Fld := ⟨aCLK_SEU_COUNT, 0, 16⟩
def CLK_SYNA_OUT_CFG_div (n : Nat) : Fld := ⟨(aCLK_SYNA_OUT_CFG n), 0, 10⟩
def CLK_SYNA_OUT_CFG_en (n : Nat) : Fld := ⟨(aCLK_SYNA_OUT_CFG n), 16, 1⟩
def PWR_STATUS_state : Fld := ⟨aPWR_STATUS, 0, 3⟩
def PWR_STATUS_busy : Fld := ⟨aPWR_STATUS, 3, 1⟩
def PWR_STATUS_target : Fld := ⟨aPWR_STATUS, 4, 3⟩
def PWR_STATUS_result : Fld := ⟨aPWR_STATUS, 8, 4⟩
def PWR_WAKE_trig_en : Fld := ⟨aPWR_WAKE, 0, 4⟩
def PWR_WAKE_trig_falling : Fld := ⟨aPWR_WAKE, 4, 4⟩
def PWR_WAKE_bc_en : Fld := ⟨aPWR_WAKE, 8, 1⟩
def PWR_WAKE_scsb_en : Fld := ⟨aPWR_WAKE, 9, 1⟩
def PWR_WAKE_SRC_source : Fld := ⟨aPWR_WAKE_SRC, 0, 4⟩
def PWR_WAKE_SRC_count : Fld := ⟨aPWR_WAKE_SRC, 16, 16⟩
def PWR_BLOCK_EN_npc : Fld := ⟨aPWR_BLOCK_EN, 0, 1⟩
def PWR_BLOCK_EN_hk : Fld := ⟨aPWR_BLOCK_EN, 1, 1⟩
def PWR_BLOCK_EN_pio : Fld := ⟨aPWR_BLOCK_EN, 2, 1⟩
def PWR_LAST_STEP_us : Fld := ⟨aPWR_LAST_STEP, 0, 32⟩
def PWR_IRQ_STAT_done : Fld := ⟨aPWR_IRQ_STAT, 0, 1⟩
def PWR_IRQ_STAT_refused : Fld := ⟨aPWR_IRQ_STAT, 1, 1⟩
def PWR_IRQ_STAT_wake : Fld := ⟨aPWR_IRQ_STAT, 2, 1⟩
def CFG_STATUS_structure : Fld := ⟨aCFG_STATUS, 0, 2⟩
def CFG_STATUS_key_enforced : Fld := ⟨aCFG_STATUS, 2, 1⟩
def CFG_STATUS_overlay_pending : Fld := ⟨aCFG_STATUS, 3, 1⟩
def CFG_STATUS_seal_bad : Fld := ⟨aCFG_STATUS, 4, 1⟩
def CFG_STATUS_refusal : Fld := ⟨aCFG_STATUS, 8, 8⟩
def CFG_ACTIVE_ID_id : Fld := ⟨aCFG_ACTIVE_ID, 0, 32⟩
def CFG_STAGE_ADDR_addr : Fld := ⟨aCFG_STAGE_ADDR, 2, 21⟩
def CFG_OVL_FRAME_target : Fld := ⟨aCFG_OVL_FRAME, 0, 32⟩
def CFG_LOAD_STATUS_busy : Fld := ⟨aCFG_LOAD_STATUS, 0, 1⟩
def CFG_LOAD_STATUS_cause : Fld := ⟨aCFG_LOAD_STATUS, 8, 8⟩
def CFG_LOAD_STATUS_section : Fld := ⟨aCFG_LOAD_STATUS, 16, 6⟩
def CFG_LOAD_STATUS_record : Fld := ⟨aCFG_LOAD_STATUS, 22, 10⟩
def CFG_APPLY_FRAME_frame : Fld := ⟨aCFG_APPLY_FRAME, 0, 32⟩
def CFG_ADMISSION_link_capacity : Fld := ⟨aCFG_ADMISSION, 0, 8⟩
def CFG_ADMISSION_link_used : Fld := ⟨aCFG_ADMISSION, 8, 8⟩
def CFG_ADMISSION_arc_used : Fld := ⟨aCFG_ADMISSION, 16, 8⟩
def CFG_IRQ_STAT_accepted : Fld := ⟨aCFG_IRQ_STAT, 0, 1⟩
def CFG_IRQ_STAT_rejected : Fld := ⟨aCFG_IRQ_STAT, 1, 1⟩
def CFG_IRQ_STAT_applied : Fld := ⟨aCFG_IRQ_STAT, 2, 1⟩
def CFG_IRQ_STAT_refused : Fld := ⟨aCFG_IRQ_STAT, 3, 1⟩
def NVM_STATUS_busy : Fld := ⟨aNVM_STATUS, 0, 1⟩
def NVM_STATUS_unlocked : Fld := ⟨aNVM_STATUS, 1, 1⟩
def NVM_STATUS_key_sealed : Fld := ⟨aNVM_STATUS, 2, 1⟩
def NVM_STATUS_cause : Fld := ⟨aNVM_STATUS, 8, 8⟩
def NVM_ADDR_addr : Fld := ⟨aNVM_ADDR, 0, 17⟩
def NVM_RDATA_data : Fld := ⟨aNVM_RDATA, 0, 32⟩
def NVM_IRQ_STAT_done : Fld := ⟨aNVM_IRQ_STAT, 0, 1⟩
def NVM_IRQ_STAT_error : Fld := ⟨aNVM_IRQ_STAT, 1, 1⟩
def CTL_PORT_CFG_spi_en : Fld := ⟨aCTL_PORT_CFG, 0, 1⟩
def CTL_PORT_CFG_i2c_en : Fld := ⟨aCTL_PORT_CFG, 1, 1⟩
def CTL_PORT_CFG_irq_retrigger : Fld := ⟨aCTL_PORT_CFG, 2, 1⟩
def CTL_CONFLICTS_spi_lost : Fld := ⟨aCTL_CONFLICTS, 0, 16⟩
def CTL_CONFLICTS_i2c_lost : Fld := ⟨aCTL_CONFLICTS, 16, 16⟩
def CTL_IRQ_STAT_conflict : Fld := ⟨aCTL_IRQ_STAT, 0, 1⟩
def CTL_IRQ_STAT_lock_reject : Fld := ⟨aCTL_IRQ_STAT, 1, 1⟩
def CTL_IRQ_STAT_frame_error : Fld := ⟨aCTL_IRQ_STAT, 2, 1⟩
def CTL_IRQ_STAT_other_reject : Fld := ⟨aCTL_IRQ_STAT, 3, 1⟩
def CTL_IRQ_STAT_lock_broken : Fld := ⟨aCTL_IRQ_STAT, 4, 1⟩
def SHT_CTRL_run : Fld := ⟨aSHT_CTRL, 0, 1⟩
def SHT_CTRL_trig_mode : Fld := ⟨aSHT_CTRL, 1, 1⟩
def SHT_CTRL_gov_mode : Fld := ⟨aSHT_CTRL, 2, 2⟩
def SHT_STATUS_mode : Fld := ⟨aSHT_STATUS, 0, 2⟩
def SHT_STATUS_exposures : Fld := ⟨aSHT_STATUS, 2, 3⟩
def SHT_STATUS_streaming : Fld := ⟨aSHT_STATUS, 5, 1⟩
def SHT_STATUS_integrating : Fld := ⟨aSHT_STATUS, 6, 1⟩
def SHT_ROW_TIME_row_pix : Fld := ⟨aSHT_ROW_TIME, 0, 16⟩
def SHT_FRAME_PERIOD_period : Fld := ⟨aSHT_FRAME_PERIOD, 0, 32⟩
def SHT_EXP_exp (n : Nat) : Fld := ⟨(aSHT_EXP n), 0, 32⟩
def SHT_GAIN_hcg : Fld := ⟨aSHT_GAIN, 0, 4⟩
def SHT_TRIG_CFG_src : Fld := ⟨aSHT_TRIG_CFG, 0, 3⟩
def SHT_TRIG_CFG_falling : Fld := ⟨aSHT_TRIG_CFG, 3, 1⟩
def SHT_TRIG_IGNORED_count : Fld := ⟨aSHT_TRIG_IGNORED, 0, 16⟩
def SHT_GOV_CFG_target : Fld := ⟨aSHT_GOV_CFG, 0, 12⟩
def SHT_GOV_CFG_gain : Fld := ⟨aSHT_GOV_CFG, 12, 4⟩
def SHT_GOV_CFG_deadband : Fld := ⟨aSHT_GOV_CFG, 16, 8⟩
def SHT_GOV_METER_first : Fld := ⟨aSHT_GOV_METER, 0, 11⟩
def SHT_GOV_METER_last : Fld := ⟨aSHT_GOV_METER, 16, 11⟩
def SHT_GOV_BANKS_banks : Fld := ⟨aSHT_GOV_BANKS, 0, 24⟩
def SHT_GOV_MIN_bound : Fld := ⟨aSHT_GOV_MIN, 0, 32⟩
def SHT_GOV_MAX_bound : Fld := ⟨aSHT_GOV_MAX, 0, 32⟩
def SHT_GOV_RATIO_ratio_1 : Fld := ⟨aSHT_GOV_RATIO, 0, 8⟩
def SHT_GOV_RATIO_ratio_2 : Fld := ⟨aSHT_GOV_RATIO, 8, 8⟩
def SHT_GOV_RATIO_ratio_3 : Fld := ⟨aSHT_GOV_RATIO, 16, 8⟩
def SHT_LIVE_EXP_exp (n : Nat) : Fld := ⟨(aSHT_LIVE_EXP n), 0, 32⟩
def SHT_LIVE_LAG_lag_1 : Fld := ⟨aSHT_LIVE_LAG, 8, 8⟩
def SHT_LIVE_LAG_lag_2 : Fld := ⟨aSHT_LIVE_LAG, 16, 8⟩
def SHT_LIVE_LAG_lag_3 : Fld := ⟨aSHT_LIVE_LAG, 24, 8⟩
def SHT_LIVE_TIMING_row_pix : Fld := ⟨aSHT_LIVE_TIMING, 0, 16⟩
def SHT_LIVE_TIMING_blank_pitch : Fld := ⟨aSHT_LIVE_TIMING, 16, 16⟩
def SHT_FRAME_NUM_frame : Fld := ⟨aSHT_FRAME_NUM, 0, 32⟩
def SHT_IRQ_STAT_readout_start : Fld := ⟨aSHT_IRQ_STAT, 0, 1⟩
def SHT_IRQ_STAT_readout_end : Fld := ⟨aSHT_IRQ_STAT, 1, 1⟩
def SHT_IRQ_STAT_trig_ignored : Fld := ⟨aSHT_IRQ_STAT, 2, 1⟩
def SHT_IRQ_STAT_ae_clamped : Fld := ⟨aSHT_IRQ_STAT, 3, 1⟩
def SHT_IRQ_STAT_limit : Fld := ⟨aSHT_IRQ_STAT, 4, 1⟩
def WIN_ENABLE_en (n : Nat) : Fld := ⟨(aWIN_ENABLE n), 0, 32⟩
def WIN_STATUS_windows : Fld := ⟨aWIN_STATUS, 0, 11⟩
def WIN_STATUS_max_per_slot : Fld := ⟨aWIN_STATUS, 16, 7⟩
def WIN_CUT_LOAD_worst_pix : Fld := ⟨aWIN_CUT_LOAD, 0, 16⟩
def WIN_CUT_LOAD_worst_row : Fld := ⟨aWIN_CUT_LOAD, 16, 11⟩
def WIN_IRQ_STAT_applied : Fld := ⟨aWIN_IRQ_STAT, 0, 1⟩
def RDO_STATUS_rest_pos : Fld := ⟨aRDO_STATUS, 0, 8⟩
def RDO_STATUS_frozen_banks : Fld := ⟨aRDO_STATUS, 8, 5⟩
def RDO_MEAN_CFG_exp : Fld := ⟨aRDO_MEAN_CFG, 0, 2⟩
def RDO_EVT_CFG_hi : Fld := ⟨aRDO_EVT_CFG, 0, 12⟩
def RDO_EVT_CFG_lo : Fld := ⟨aRDO_EVT_CFG, 16, 12⟩
def RDO_EVT_LEVEL_level : Fld := ⟨aRDO_EVT_LEVEL, 0, 24⟩
def RDO_TEST_CFG_en : Fld := ⟨aRDO_TEST_CFG, 0, 1⟩
def RDO_TEST_CFG_code : Fld := ⟨aRDO_TEST_CFG, 4, 12⟩
def RDO_TEST_ROWS_first : Fld := ⟨aRDO_TEST_ROWS, 0, 11⟩
def RDO_TEST_ROWS_last : Fld := ⟨aRDO_TEST_ROWS, 16, 11⟩
def RDO_RETIRE_RESULT_cause : Fld := ⟨aRDO_RETIRE_RESULT, 0, 8⟩
def RDO_RETIRE_RESULT_pending : Fld := ⟨aRDO_RETIRE_RESULT, 8, 1⟩
def RDO_FROZEN_banks : Fld := ⟨aRDO_FROZEN, 0, 24⟩
def RDO_DEGRADED_banks : Fld := ⟨aRDO_DEGRADED, 0, 24⟩
def RDO_SELFTEST_sets : Fld := ⟨aRDO_SELFTEST, 0, 16⟩
def RDO_SELFTEST_first_fails : Fld := ⟨aRDO_SELFTEST, 16, 16⟩
def RDO_IRQ_STAT_retired : Fld := ⟨aRDO_IRQ_STAT, 0, 1⟩
def RDO_IRQ_STAT_frozen : Fld := ⟨aRDO_IRQ_STAT, 1, 1⟩
def RDO_IRQ_STAT_dead_column : Fld := ⟨aRDO_IRQ_STAT, 2, 1⟩
def RDO_IRQ_STAT_selftest_fail : Fld := ⟨aRDO_IRQ_STAT, 3, 1⟩
def RDO_IRQ_STAT_retire_refused : Fld := ⟨aRDO_IRQ_STAT, 4, 1⟩
def RDO_BANK_STATE_in_service (n : Nat) : Fld := ⟨(aRDO_BANK_STATE n), 0, 8⟩
def RDO_BANK_STATE_first_retired (n : Nat) : Fld := ⟨(aRDO_BANK_STATE n), 8, 8⟩
def RDO_BANK_STATE_dead (n : Nat) : Fld := ⟨(aRDO_BANK_STATE n), 16, 8⟩
def RDO_BANK_MEAN_mean (n : Nat) : Fld := ⟨(aRDO_BANK_MEAN n), 0, 12⟩
def RDO_BANK_MEAN_row (n : Nat) : Fld := ⟨(aRDO_BANK_MEAN n), 16, 11⟩
def RDO_BANK_MEAN_valid (n : Nat) : Fld := ⟨(aRDO_BANK_MEAN n), 31, 1⟩
def RDO_BANK_RET_retired (n : Nat) (m : Nat) : Fld := ⟨(aRDO_BANK_RET n m), 0, 32⟩
def RDO_BANK_DEAD_dead (n : Nat) (m : Nat) : Fld := ⟨(aRDO_BANK_DEAD n m), 0, 32⟩
def CAL_CTRL_hold : Fld := ⟨aCAL_CTRL, 0, 1⟩
def CAL_STATUS_settled : Fld := ⟨aCAL_STATUS, 0, 24⟩
def CAL_ALERT_level : Fld := ⟨aCAL_ALERT, 0, 8⟩
def CAL_ALERT_BANKS_banks : Fld := ⟨aCAL_ALERT_BANKS, 0, 24⟩
def CAL_COUNTS_skipped : Fld := ⟨aCAL_COUNTS, 0, 16⟩
def CAL_COUNTS_discarded : Fld := ⟨aCAL_COUNTS, 16, 16⟩
def CAL_SEL_bank : Fld := ⟨aCAL_SEL, 0, 5⟩
def CAL_SEL_slice : Fld := ⟨aCAL_SEL, 8, 8⟩
def CAL_SNAP_STATUS_ready : Fld := ⟨aCAL_SNAP_STATUS, 0, 1⟩
def CAL_SNAP_STATUS_cause : Fld := ⟨aCAL_SNAP_STATUS, 8, 8⟩
def CAL_SNAP_TRIM_off : Fld := ⟨aCAL_SNAP_TRIM, 0, 8⟩
def CAL_SNAP_TRIM_gain : Fld := ⟨aCAL_SNAP_TRIM, 8, 8⟩
def CAL_SNAP_TRIM_c1 : Fld := ⟨aCAL_SNAP_TRIM, 16, 8⟩
def CAL_SNAP_TRIM_c2 : Fld := ⟨aCAL_SNAP_TRIM, 24, 8⟩
def CAL_SNAP_STEP_k : Fld := ⟨aCAL_SNAP_STEP, 0, 4⟩
def CAL_SNAP_STEP_retired : Fld := ⟨aCAL_SNAP_STEP, 4, 1⟩
def CAL_SNAP_STEP_at_limit : Fld := ⟨aCAL_SNAP_STEP, 5, 1⟩
def CAL_SNAP_STEP_residual : Fld := ⟨aCAL_SNAP_STEP, 8, 8⟩
def CAL_SNAP_STEP_window : Fld := ⟨aCAL_SNAP_STEP, 16, 5⟩
def CAL_SNAP_W_lo (n : Nat) : Fld := ⟨(aCAL_SNAP_W n), 0, 16⟩
def CAL_SNAP_W_hi (n : Nat) : Fld := ⟨(aCAL_SNAP_W n), 16, 16⟩
def CAL_IRQ_STAT_settled : Fld := ⟨aCAL_IRQ_STAT, 0, 1⟩
def CAL_IRQ_STAT_trim_limit : Fld := ⟨aCAL_IRQ_STAT, 1, 1⟩
def CAL_IRQ_STAT_weight_sat : Fld := ⟨aCAL_IRQ_STAT, 2, 1⟩
def CAL_IRQ_STAT_alert : Fld := ⟨aCAL_IRQ_STAT, 3, 1⟩
def CAL_IRQ_STAT_snapshot : Fld := ⟨aCAL_IRQ_STAT, 4, 1⟩
def CAL_BANK_RES_rms (n : Nat) : Fld := ⟨(aCAL_BANK_RES n), 0, 8⟩
def CAL_BANK_RES_worst_slice (n : Nat) : Fld := ⟨(aCAL_BANK_RES n), 8, 8⟩
def CAL_BANK_RES_worst_res (n : Nat) : Fld := ⟨(aCAL_BANK_RES n), 16, 8⟩
def CAL_BANK_RES_frozen (n : Nat) : Fld := ⟨(aCAL_BANK_RES n), 24, 1⟩
def CAL_BANK_AGE_cycles (n : Nat) : Fld := ⟨(aCAL_BANK_AGE n), 0, 16⟩
def CAL_BANK_SRES_res (n : Nat) (m : Nat) : Fld := ⟨(aCAL_BANK_SRES n m), 0, 32⟩
def PIPE_CTRL_defect_en : Fld := ⟨aPIPE_CTRL, 0, 1⟩
def PIPE_CTRL_bl_filter : Fld := ⟨aPIPE_CTRL, 4, 3⟩
def PIPE_BLACK_pedestal : Fld := ⟨aPIPE_BLACK, 0, 8⟩
def PIPE_DEFECT_thr : Fld := ⟨aPIPE_DEFECT, 0, 12⟩
def PIPE_MERGE_sat : Fld := ⟨aPIPE_MERGE, 0, 12⟩
def PIPE_MERGE_lcg_ratio : Fld := ⟨aPIPE_MERGE, 16, 16⟩
def PIPE_FMT_raw16_shift : Fld := ⟨aPIPE_FMT, 0, 3⟩
def PIPE_STATUS_curve_bad : Fld := ⟨aPIPE_STATUS, 0, 4⟩
def PIPE_STATUS_merge_excluded : Fld := ⟨aPIPE_STATUS, 4, 1⟩
def PIPE_DEFECT_COUNT_count : Fld := ⟨aPIPE_DEFECT_COUNT, 0, 24⟩
def PIPE_LIVE_RATIO_ratio (n : Nat) : Fld := ⟨(aPIPE_LIVE_RATIO n), 0, 20⟩
def PIPE_IRQ_STAT_curve_bad : Fld := ⟨aPIPE_IRQ_STAT, 0, 1⟩
def PIPE_IRQ_STAT_merge_excluded : Fld := ⟨aPIPE_IRQ_STAT, 1, 1⟩
def PIPE_IRQ_STAT_bl_missing : Fld := ⟨aPIPE_IRQ_STAT, 2, 1⟩
def PIPE_BL_bl (n : Nat) (m : Nat) (k : Nat) : Fld := ⟨(aPIPE_BL n m k), 0, 16⟩
def NPC_CTRL_en : Fld := ⟨aNPC_CTRL, 0, 1⟩
def NPC_CTRL_sat_trap : Fld := ⟨aNPC_CTRL, 1, 1⟩
def NPC_STATUS_busy : Fld := ⟨aNPC_STATUS, 0, 4⟩
def NPC_STATUS_prog : Fld := ⟨aNPC_STATUS, 4, 4⟩
def NPC_STATUS_ready : Fld := ⟨aNPC_STATUS, 8, 5⟩
def NPC_PROG_EN_en : Fld := ⟨aNPC_PROG_EN, 0, 16⟩
def NPC_INVENTORY_programs : Fld := ⟨aNPC_INVENTORY, 0, 16⟩
def NPC_IRQ_STAT_run_done : Fld := ⟨aNPC_IRQ_STAT, 0, 1⟩
def NPC_IRQ_STAT_invalid : Fld := ⟨aNPC_IRQ_STAT, 1, 1⟩
def NPC_IRQ_STAT_saturated : Fld := ⟨aNPC_IRQ_STAT, 2, 1⟩
def NPC_IRQ_STAT_exception : Fld := ⟨aNPC_IRQ_STAT, 3, 1⟩
def NPC_IRQ_STAT_halted : Fld := ⟨aNPC_IRQ_STAT, 4, 1⟩
def NPC_DBG_halt_en : Fld := ⟨aNPC_DBG, 0, 1⟩
def NPC_DBG_prog : Fld := ⟨aNPC_DBG, 4, 4⟩
def NPC_DBG_HALTED_halted : Fld := ⟨aNPC_DBG_HALTED, 0, 16⟩
def NPC_FLAGS_flags : Fld := ⟨aNPC_FLAGS, 0, 8⟩
def NPC_PARAM_value (n : Nat) : Fld := ⟨(aNPC_PARAM n), 0, 32⟩
def NPC_PROG_STAT_cause (n : Nat) : Fld := ⟨(aNPC_PROG_STAT n), 0, 8⟩
def NPC_PROG_STAT_sat (n : Nat) : Fld := ⟨(aNPC_PROG_STAT n), 8, 1⟩
def NPC_PROG_STAT_invalid (n : Nat) : Fld := ⟨(aNPC_PROG_STAT n), 16, 16⟩
def NPC_PROG_FRAME_frame (n : Nat) : Fld := ⟨(aNPC_PROG_FRAME n), 0, 32⟩
def NPC_PROG_TIME_cycles (n : Nat) : Fld := ⟨(aNPC_PROG_TIME n), 0, 32⟩
def NPC_PROG_SLACK_min_slack (n : Nat) : Fld := ⟨(aNPC_PROG_SLACK n), 0, 32⟩
def NPC_EXC_INFO_cause (n : Nat) : Fld := ⟨(aNPC_EXC_INFO n), 0, 8⟩
def NPC_EXC_INFO_trap (n : Nat) : Fld := ⟨(aNPC_EXC_INFO n), 8, 1⟩
def NPC_EXC_INFO_mode (n : Nat) : Fld := ⟨(aNPC_EXC_INFO n), 9, 1⟩
def NPC_EXC_INFO_pending (n : Nat) : Fld := ⟨(aNPC_EXC_INFO n), 10, 1⟩
def NPC_EXC_INFO_depth (n : Nat) : Fld := ⟨(aNPC_EXC_INFO n), 11, 2⟩
def NPC_EXC_INFO_halt (n : Nat) : Fld := ⟨(aNPC_EXC_INFO n), 13, 1⟩
def NPC_EXC_INFO_pc (n : Nat) : Fld := ⟨(aNPC_EXC_INFO n), 14, 15⟩
def NPC_EXC_LOOP_count (n : Nat) (m : Nat) : Fld := ⟨(aNPC_EXC_LOOP n m), 0, 32⟩
def NPC_EXC_ADDR_addr (n : Nat) : Fld := ⟨(aNPC_EXC_ADDR n), 0, 32⟩
def NPC_EXC_FRAME_frame (n : Nat) : Fld := ⟨(aNPC_EXC_FRAME n), 0, 32⟩
def EVF_ROW_MARK_row : Fld := ⟨aEVF_ROW_MARK, 0, 11⟩
def EVF_SRC_LEVEL_level (n : Nat) : Fld := ⟨(aEVF_SRC_LEVEL n), 0, 32⟩
def EVF_TASK_DROPPED_count : Fld := ⟨aEVF_TASK_DROPPED, 0, 16⟩
def EVF_SEU_corrected : Fld := ⟨aEVF_SEU, 0, 16⟩
def EVF_IRQ_STAT_task_irq : Fld := ⟨aEVF_IRQ_STAT, 0, 4⟩
def EVF_IRQ_STAT_coalesced : Fld := ⟨aEVF_IRQ_STAT, 4, 1⟩
def EVF_IRQ_STAT_forced : Fld := ⟨aEVF_IRQ_STAT, 5, 1⟩
def EVF_IRQ_STAT_sync_refused : Fld := ⟨aEVF_IRQ_STAT, 6, 1⟩
def EVF_IRQ_STAT_sync_fired : Fld := ⟨aEVF_IRQ_STAT, 7, 1⟩
def EVF_IRQ_STAT_time_step : Fld := ⟨aEVF_IRQ_STAT, 8, 1⟩
def EVF_IRQ_STAT_time_msg : Fld := ⟨aEVF_IRQ_STAT, 9, 1⟩
def EVF_IRQ_STAT_pps : Fld := ⟨aEVF_IRQ_STAT, 10, 1⟩
def EVF_IRQ_STAT_task_dropped : Fld := ⟨aEVF_IRQ_STAT, 11, 1⟩
def EVF_IRQ_STAT_seu : Fld := ⟨aEVF_IRQ_STAT, 12, 1⟩
def EVF_SYNC_CFG_mode : Fld := ⟨aEVF_SYNC_CFG, 0, 2⟩
def EVF_SYNC_CFG_comp : Fld := ⟨aEVF_SYNC_CFG, 5, 1⟩
def EVF_SYNC_CFG_burst : Fld := ⟨aEVF_SYNC_CFG, 6, 1⟩
def EVF_SYNC_CFG_auto_release : Fld := ⟨aEVF_SYNC_CFG, 7, 1⟩
def EVF_SYNC_CTRL_arm : Fld := ⟨aEVF_SYNC_CTRL, 0, 1⟩
def EVF_SYNC_STAT_armed : Fld := ⟨aEVF_SYNC_STAT, 0, 1⟩
def EVF_SYNC_STAT_driving : Fld := ⟨aEVF_SYNC_STAT, 1, 1⟩
def EVF_SYNC_STAT_phase : Fld := ⟨aEVF_SYNC_STAT, 2, 3⟩
def EVF_SYNC_STAT_last_id : Fld := ⟨aEVF_SYNC_STAT, 5, 3⟩
def EVF_SYNC_STAT_refused : Fld := ⟨aEVF_SYNC_STAT, 8, 8⟩
def EVF_SYNC_STAT_bad_width : Fld := ⟨aEVF_SYNC_STAT, 16, 8⟩
def EVF_SYNC_STAT_fires : Fld := ⟨aEVF_SYNC_STAT, 24, 8⟩
def EVF_FIRE_DELAY_delay (n : Nat) : Fld := ⟨(aEVF_FIRE_DELAY n), 0, 12⟩
def EVF_TU_CTRL_mode (n : Nat) : Fld := ⟨(aEVF_TU_CTRL n), 0, 2⟩
def EVF_TU_CTRL_armed (n : Nat) : Fld := ⟨(aEVF_TU_CTRL n), 3, 1⟩
def EVF_TU_CTRL_log (n : Nat) : Fld := ⟨(aEVF_TU_CTRL n), 4, 1⟩
def EVF_TU_CTRL_hold (n : Nat) : Fld := ⟨(aEVF_TU_CTRL n), 8, 8⟩
def EVF_TU_CTRL_holdoff (n : Nat) : Fld := ⟨(aEVF_TU_CTRL n), 16, 16⟩
def EVF_TU_PATTERN_p (n : Nat) : Fld := ⟨(aEVF_TU_PATTERN n), 0, 32⟩
def EVF_TU_DONTCARE_d (n : Nat) : Fld := ⟨(aEVF_TU_DONTCARE n), 0, 32⟩
def EVF_TU_STAT_fires (n : Nat) : Fld := ⟨(aEVF_TU_STAT n), 0, 16⟩
def EVF_TU_STAT_forced (n : Nat) : Fld := ⟨(aEVF_TU_STAT n), 16, 8⟩
def EVF_TU_STAT_last_forced (n : Nat) : Fld := ⟨(aEVF_TU_STAT n), 24, 1⟩
def EVF_TU_STAT_interp (n : Nat) : Fld := ⟨(aEVF_TU_STAT n), 25, 1⟩
def EVF_COALESCE_lo (n : Nat) : Fld := ⟨(aEVF_COALESCE n), 0, 16⟩
def EVF_COALESCE_hi (n : Nat) : Fld := ⟨(aEVF_COALESCE n), 16, 16⟩
def TIME_INC_inc : Fld := ⟨aTIME_INC, 0, 32⟩
def TIME_STATUS_synced : Fld := ⟨aTIME_STATUS, 0, 1⟩
def TIME_STATUS_coarse : Fld := ⟨aTIME_STATUS, 1, 1⟩
def TIME_STATUS_slewing : Fld := ⟨aTIME_STATUS, 2, 1⟩
def TIME_STATUS_epoch : Fld := ⟨aTIME_STATUS, 8, 8⟩
def TIME_CTRL_set : Fld := ⟨aTIME_CTRL, 0, 1⟩
def TIME_CTRL_add : Fld := ⟨aTIME_CTRL, 1, 1⟩
def TIME_CTRL_pps_arm : Fld := ⟨aTIME_CTRL, 2, 1⟩
def TIME_CTRL_pps_src : Fld := ⟨aTIME_CTRL, 4, 3⟩
def TIME_CTRL_slew_en : Fld := ⟨aTIME_CTRL, 8, 1⟩
def TIME_SLEW_LIMIT_ns : Fld := ⟨aTIME_SLEW_LIMIT, 0, 32⟩
def TIME_PATH_DELAY_delay : Fld := ⟨aTIME_PATH_DELAY, 0, 32⟩
def TIME_TIMER_PERIOD_ns (n : Nat) : Fld := ⟨(aTIME_TIMER_PERIOD n), 0, 32⟩
def TIME_TIMER_PHASE_ns (n : Nat) : Fld := ⟨(aTIME_TIMER_PHASE n), 0, 32⟩
def ARC_STATUS_regions : Fld := ⟨aARC_STATUS, 0, 5⟩
def ARC_STATUS_g_shares : Fld := ⟨aARC_STATUS, 8, 8⟩
def ARC_STATUS_pass_running : Fld := ⟨aARC_STATUS, 16, 1⟩
def ARC_CMD_RESULT_cause : Fld := ⟨aARC_CMD_RESULT, 0, 8⟩
def ARC_REPLAY_RANGE_first : Fld := ⟨aARC_REPLAY_RANGE, 0, 16⟩
def ARC_REPLAY_RANGE_count : Fld := ⟨aARC_REPLAY_RANGE, 16, 16⟩
def ARC_HOST_ADDR_line : Fld := ⟨aARC_HOST_ADDR, 6, 20⟩
def ARC_HOST_STATUS_ready : Fld := ⟨aARC_HOST_STATUS, 0, 1⟩
def ARC_HOST_STATUS_ecc_error : Fld := ⟨aARC_HOST_STATUS, 1, 1⟩
def ARC_SCRUB_passes : Fld := ⟨aARC_SCRUB, 0, 16⟩
def ARC_SCRUB_corrected : Fld := ⟨aARC_SCRUB, 16, 16⟩
def ARC_ECC_uncorrectable : Fld := ⟨aARC_ECC, 0, 16⟩
def ARC_IRQ_STAT_triggered : Fld := ⟨aARC_IRQ_STAT, 0, 1⟩
def ARC_IRQ_STAT_frozen : Fld := ⟨aARC_IRQ_STAT, 1, 1⟩
def ARC_IRQ_STAT_replay_done : Fld := ⟨aARC_IRQ_STAT, 2, 1⟩
def ARC_IRQ_STAT_cmd_refused : Fld := ⟨aARC_IRQ_STAT, 3, 1⟩
def ARC_IRQ_STAT_abandoned : Fld := ⟨aARC_IRQ_STAT, 4, 1⟩
def ARC_IRQ_STAT_ecc : Fld := ⟨aARC_IRQ_STAT, 5, 1⟩
def ARC_REG_STATE_state (n : Nat) : Fld := ⟨(aARC_REG_STATE n), 0, 2⟩
def ARC_REG_STATE_passing (n : Nat) : Fld := ⟨(aARC_REG_STATE n), 2, 1⟩
def ARC_REG_STATE_generation (n : Nat) : Fld := ⟨(aARC_REG_STATE n), 8, 8⟩
def ARC_REG_STATE_pass (n : Nat) : Fld := ⟨(aARC_REG_STATE n), 16, 16⟩
def ARC_REG_COUNTS_freeze_ignored (n : Nat) : Fld := ⟨(aARC_REG_COUNTS n), 0, 16⟩
def ARC_REG_COUNTS_rearm_ignored (n : Nat) : Fld := ⟨(aARC_REG_COUNTS n), 16, 16⟩
def ARC_REG_HELD_pre (n : Nat) : Fld := ⟨(aARC_REG_HELD n), 0, 16⟩
def ARC_REG_HELD_post (n : Nat) : Fld := ⟨(aARC_REG_HELD n), 16, 16⟩
def ARC_REG_DROPS_abandoned (n : Nat) : Fld := ⟨(aARC_REG_DROPS n), 0, 16⟩
def RING_DESC0_flags (n : Nat) : Fld := ⟨(aRING_DESC0 n), 0, 8⟩
def RING_DESC0_priority (n : Nat) : Fld := ⟨(aRING_DESC0 n), 8, 8⟩
def RING_DESC0_tag (n : Nat) : Fld := ⟨(aRING_DESC0 n), 16, 12⟩
def RING_DESC1_spool_kib (n : Nat) : Fld := ⟨(aRING_DESC1 n), 0, 16⟩
def RING_DESC1_role (n : Nat) : Fld := ⟨(aRING_DESC1 n), 16, 3⟩
def RING_CLASS_in_force (n : Nat) : Fld := ⟨(aRING_CLASS n), 1, 1⟩
def RING_CLASS_demoted (n : Nat) : Fld := ⟨(aRING_CLASS n), 2, 1⟩
def RING_CLASS_live_en (n : Nat) : Fld := ⟨(aRING_CLASS n), 3, 1⟩
def RING_CLASS_shares (n : Nat) : Fld := ⟨(aRING_CLASS n), 8, 8⟩
def RING_CTRL_en (n : Nat) : Fld := ⟨(aRING_CTRL n), 0, 1⟩
def RING_CTRL_fill_irq (n : Nat) : Fld := ⟨(aRING_CTRL n), 16, 16⟩
def RING_SEQ_next (n : Nat) : Fld := ⟨(aRING_SEQ n), 0, 16⟩
def RING_SEQ_unacked (n : Nat) : Fld := ⟨(aRING_SEQ n), 16, 16⟩
def RING_FRAMES_sent (n : Nat) : Fld := ⟨(aRING_FRAMES n), 0, 16⟩
def RING_FRAMES_dropped (n : Nat) : Fld := ⟨(aRING_FRAMES n), 16, 16⟩
def RING_FILL_now_kib (n : Nat) : Fld := ⟨(aRING_FILL n), 0, 16⟩
def RING_FILL_peak_kib (n : Nat) : Fld := ⟨(aRING_FILL n), 16, 16⟩
def RING_LAST_FRAME_frame (n : Nat) : Fld := ⟨(aRING_LAST_FRAME n), 0, 32⟩
def RING_INQ_DESC_flags (n : Nat) : Fld := ⟨(aRING_INQ_DESC n), 0, 8⟩
def RING_INQ_DESC_depth (n : Nat) : Fld := ⟨(aRING_INQ_DESC n), 8, 8⟩
def RING_INQ_DESC_priority (n : Nat) : Fld := ⟨(aRING_INQ_DESC n), 16, 8⟩
def RING_INQ_STAT_fill (n : Nat) : Fld := ⟨(aRING_INQ_STAT n), 0, 7⟩
def RING_INQ_STAT_tag_valid (n : Nat) : Fld := ⟨(aRING_INQ_STAT n), 7, 1⟩
def RING_INQ_STAT_refused (n : Nat) : Fld := ⟨(aRING_INQ_STAT n), 8, 8⟩
def RING_INQ_STAT_last_tag (n : Nat) : Fld := ⟨(aRING_INQ_STAT n), 16, 16⟩
def RING_STATUS_rings : Fld := ⟨aRING_STATUS, 0, 9⟩
def RING_STATUS_demoted : Fld := ⟨aRING_STATUS, 16, 9⟩
def RING_IRQ_STAT_fill : Fld := ⟨aRING_IRQ_STAT, 0, 1⟩
def RING_IRQ_STAT_dropped : Fld := ⟨aRING_IRQ_STAT, 1, 1⟩
def RING_IRQ_STAT_demoted : Fld := ⟨aRING_IRQ_STAT, 2, 1⟩
def RING_IRQ_STAT_short : Fld := ⟨aRING_IRQ_STAT, 3, 1⟩
def RING_IRQ_STAT_inq_full : Fld := ⟨aRING_IRQ_STAT, 4, 1⟩
def RING_FILL_SRC_ring (n : Nat) : Fld := ⟨(aRING_FILL_SRC n), 0, 32⟩
def RING_DROP_SRC_ring (n : Nat) : Fld := ⟨(aRING_DROP_SRC n), 0, 32⟩
def LNK_CTRL_en : Fld := ⟨aLNK_CTRL, 0, 1⟩
def LNK_CTRL_pin_rate : Fld := ⟨aLNK_CTRL, 2, 1⟩
def LNK_CTRL_wake_on_data : Fld := ⟨aLNK_CTRL, 3, 1⟩
def LNK_CTRL_lane_en : Fld := ⟨aLNK_CTRL, 8, 8⟩
def LNK_CTRL_max_rate : Fld := ⟨aLNK_CTRL, 16, 2⟩
def LNK_CTRL_max_version : Fld := ⟨aLNK_CTRL, 18, 2⟩
def LNK_STATUS_state : Fld := ⟨aLNK_STATUS, 0, 3⟩
def LNK_STATUS_bc_aligned : Fld := ⟨aLNK_STATUS, 3, 1⟩
def LNK_STATUS_version : Fld := ⟨aLNK_STATUS, 4, 4⟩
def LNK_STATUS_lanes : Fld := ⟨aLNK_STATUS, 8, 8⟩
def LNK_STATUS_rate : Fld := ⟨aLNK_STATUS, 16, 2⟩
def LNK_STATUS_low : Fld := ⟨aLNK_STATUS, 18, 2⟩
def LNK_STATUS_cause : Fld := ⟨aLNK_STATUS, 24, 8⟩
def LNK_POLARITY_inv : Fld := ⟨aLNK_POLARITY, 0, 8⟩
def LNK_REPLAY_CFG_limit : Fld := ⟨aLNK_REPLAY_CFG, 16, 4⟩
def LNK_LSN_next : Fld := ⟨aLNK_LSN, 0, 16⟩
def LNK_LSN_oldest : Fld := ⟨aLNK_LSN, 16, 16⟩
def LNK_REPLAY_FILL_bytes : Fld := ⟨aLNK_REPLAY_FILL, 0, 18⟩
def LNK_COUNTS_replays : Fld := ⟨aLNK_COUNTS, 0, 16⟩
def LNK_COUNTS_bc_discarded : Fld := ⟨aLNK_COUNTS, 16, 16⟩
def LNK_DOWNSHIFT_limit : Fld := ⟨aLNK_DOWNSHIFT, 0, 8⟩
def LNK_PEER_caps : Fld := ⟨aLNK_PEER, 0, 32⟩
def LNK_MARKER_counter : Fld := ⟨aLNK_MARKER, 0, 16⟩
def LNK_IRQ_STAT_up : Fld := ⟨aLNK_IRQ_STAT, 0, 1⟩
def LNK_IRQ_STAT_down : Fld := ⟨aLNK_IRQ_STAT, 1, 1⟩
def LNK_IRQ_STAT_step_done : Fld := ⟨aLNK_IRQ_STAT, 2, 1⟩
def LNK_IRQ_STAT_step_failed : Fld := ⟨aLNK_IRQ_STAT, 3, 1⟩
def LNK_IRQ_STAT_replay : Fld := ⟨aLNK_IRQ_STAT, 4, 1⟩
def LNK_IRQ_STAT_bc_error : Fld := ⟨aLNK_IRQ_STAT, 5, 1⟩
def LNK_IRQ_STAT_pm_change : Fld := ⟨aLNK_IRQ_STAT, 6, 1⟩
def LNK_IRQ_STAT_downshift : Fld := ⟨aLNK_IRQ_STAT, 7, 1⟩
def LNK_IRQ_STAT_lane_lost : Fld := ⟨aLNK_IRQ_STAT, 8, 1⟩
def LNK_IRQ_STAT_lane_joined : Fld := ⟨aLNK_IRQ_STAT, 9, 1⟩
def LNK_LANE_CTRL_no_readmit : Fld := ⟨aLNK_LANE_CTRL, 0, 8⟩
def LNK_LANE_STATUS_lost : Fld := ⟨aLNK_LANE_STATUS, 0, 8⟩
def LNK_LANE_STATUS_probing : Fld := ⟨aLNK_LANE_STATUS, 8, 8⟩
def LNK_LANE_STATUS_chosen : Fld := ⟨aLNK_LANE_STATUS, 16, 8⟩
def LNK_CAPACITY_basis : Fld := ⟨aLNK_CAPACITY, 0, 8⟩
def LNK_CAPACITY_now : Fld := ⟨aLNK_CAPACITY, 8, 8⟩
def LNK_CAPACITY_used : Fld := ⟨aLNK_CAPACITY, 16, 8⟩
def LNK_CAPACITY_demoted : Fld := ⟨aLNK_CAPACITY, 24, 8⟩
def LNK_LANE_COUNTS_losses : Fld := ⟨aLNK_LANE_COUNTS, 0, 16⟩
def LNK_LANE_COUNTS_joins : Fld := ⟨aLNK_LANE_COUNTS, 16, 16⟩
def HKA_CTRL_en : Fld := ⟨aHKA_CTRL, 0, 1⟩
def HKA_CTRL_interleave : Fld := ⟨aHKA_CTRL, 1, 1⟩
def HKA_STATUS_busy : Fld := ⟨aHKA_STATUS, 0, 2⟩
def HKA_STATUS_awake : Fld := ⟨aHKA_STATUS, 2, 2⟩
def HKA_STATUS_pending : Fld := ⟨aHKA_STATUS, 4, 2⟩
def HKA_STATUS_cause : Fld := ⟨aHKA_STATUS, 8, 8⟩
def HKA_CORE_CFG_ch (n : Nat) : Fld := ⟨(aHKA_CORE_CFG n), 0, 5⟩
def HKA_CORE_CFG_scan (n : Nat) : Fld := ⟨(aHKA_CORE_CFG n), 5, 1⟩
def HKA_CORE_CFG_mode (n : Nat) : Fld := ⟨(aHKA_CORE_CFG n), 6, 2⟩
def HKA_CORE_CFG_pin_src (n : Nat) : Fld := ⟨(aHKA_CORE_CFG n), 16, 3⟩
def HKA_CORE_SCAN_mask (n : Nat) : Fld := ⟨(aHKA_CORE_SCAN n), 0, 32⟩
def HKA_CORE_COUNT_refused (n : Nat) : Fld := ⟨(aHKA_CORE_COUNT n), 0, 16⟩
def HKA_CORE_COUNT_coalesced (n : Nat) : Fld := ⟨(aHKA_CORE_COUNT n), 16, 16⟩
def HKA_RESULT_result (n : Nat) : Fld := ⟨(aHKA_RESULT n), 0, 12⟩
def HKA_RESULT_valid (n : Nat) : Fld := ⟨(aHKA_RESULT n), 12, 1⟩
def HKA_RESULT_core (n : Nat) : Fld := ⟨(aHKA_RESULT n), 13, 1⟩
def HKA_RESULT_open (n : Nat) : Fld := ⟨(aHKA_RESULT n), 14, 1⟩
def HKA_RESULT_brownout (n : Nat) : Fld := ⟨(aHKA_RESULT n), 15, 1⟩
def HKA_RESULT_count (n : Nat) : Fld := ⟨(aHKA_RESULT n), 16, 16⟩
def HKA_WIN_CFG_ch (n : Nat) : Fld := ⟨(aHKA_WIN_CFG n), 0, 5⟩
def HKA_WIN_CFG_en (n : Nat) : Fld := ⟨(aHKA_WIN_CFG n), 5, 1⟩
def HKA_WIN_CFG_hyst (n : Nat) : Fld := ⟨(aHKA_WIN_CFG n), 16, 12⟩
def HKA_WIN_LIMITS_lo (n : Nat) : Fld := ⟨(aHKA_WIN_LIMITS n), 0, 12⟩
def HKA_WIN_LIMITS_hi (n : Nat) : Fld := ⟨(aHKA_WIN_LIMITS n), 16, 12⟩
def HKA_WIN_STAT_out (n : Nat) : Fld := ⟨(aHKA_WIN_STAT n), 0, 1⟩
def HKA_WIN_STAT_above (n : Nat) : Fld := ⟨(aHKA_WIN_STAT n), 1, 1⟩
def HKA_WIN_STAT_exit_result (n : Nat) : Fld := ⟨(aHKA_WIN_STAT n), 4, 12⟩
def HKA_WIN_STAT_exits (n : Nat) : Fld := ⟨(aHKA_WIN_STAT n), 16, 16⟩
def HKA_OW_STATUS_open : Fld := ⟨aHKA_OW_STATUS, 0, 8⟩
def HKA_BUF_STATUS_held : Fld := ⟨aHKA_BUF_STATUS, 0, 12⟩
def HKA_BUF_STATUS_lost : Fld := ⟨aHKA_BUF_STATUS, 16, 16⟩
def HKA_CAL_res0 : Fld := ⟨aHKA_CAL, 0, 8⟩
def HKA_CAL_res1 : Fld := ⟨aHKA_CAL, 8, 8⟩
def HKA_CAL_forced : Fld := ⟨aHKA_CAL, 16, 16⟩
def HKA_IRQ_STAT_win_exit : Fld := ⟨aHKA_IRQ_STAT, 0, 8⟩
def HKA_IRQ_STAT_open_wire : Fld := ⟨aHKA_IRQ_STAT, 8, 1⟩
def HKA_IRQ_STAT_done0 : Fld := ⟨aHKA_IRQ_STAT, 9, 1⟩
def HKA_IRQ_STAT_done1 : Fld := ⟨aHKA_IRQ_STAT, 10, 1⟩
def HKA_IRQ_STAT_lost : Fld := ⟨aHKA_IRQ_STAT, 11, 1⟩
def HKA_IRQ_STAT_refused : Fld := ⟨aHKA_IRQ_STAT, 12, 1⟩
def HKA_IRQ_STAT_cal_sat : Fld := ⟨aHKA_IRQ_STAT, 13, 1⟩
def PIO_CTRL_run : Fld := ⟨aPIO_CTRL, 0, 8⟩
def PIO_STATUS_exists : Fld := ⟨aPIO_STATUS, 0, 8⟩
def PIO_STATUS_running : Fld := ⟨aPIO_STATUS, 8, 8⟩
def PIO_STATUS_stalled : Fld := ⟨aPIO_STATUS, 16, 8⟩
def PIO_PIN_IN_level : Fld := ⟨aPIO_PIN_IN, 0, 16⟩
def PIO_PIN_OUT_level : Fld := ⟨aPIO_PIN_OUT, 0, 16⟩
def PIO_PIN_OUT_dir : Fld := ⟨aPIO_PIN_OUT, 16, 16⟩
def PIO_IRQ_STAT_flag_irq : Fld := ⟨aPIO_IRQ_STAT, 0, 8⟩
def PIO_IRQ_STAT_halted : Fld := ⟨aPIO_IRQ_STAT, 8, 8⟩
def PIO_IRQ_STAT_fifo_error : Fld := ⟨aPIO_IRQ_STAT, 16, 1⟩
def PIO_IRQ_STAT_refused : Fld := ⟨aPIO_IRQ_STAT, 17, 1⟩
def PIO_ENG_PC_pc (n : Nat) : Fld := ⟨(aPIO_ENG_PC n), 0, 6⟩
def PIO_ENG_DIV_div (n : Nat) : Fld := ⟨(aPIO_ENG_DIV n), 0, 16⟩
def PIO_ENG_STAT_cause (n : Nat) : Fld := ⟨(aPIO_ENG_STAT n), 0, 8⟩
def PIO_ENG_COUNTS_b2 (n : Nat) : Fld := ⟨(aPIO_ENG_COUNTS n), 0, 8⟩
def PIO_ENG_COUNTS_b3 (n : Nat) : Fld := ⟨(aPIO_ENG_COUNTS n), 8, 8⟩
def PIO_ENG_COUNTS_b4 (n : Nat) : Fld := ⟨(aPIO_ENG_COUNTS n), 16, 8⟩
def PIO_ENG_COUNTS_b7 (n : Nat) : Fld := ⟨(aPIO_ENG_COUNTS n), 24, 8⟩
def SAFE_FAULT_STAT_fault : Fld := ⟨aSAFE_FAULT_STAT, 0, 8⟩
def SAFE_FAULT_STAT_warn : Fld := ⟨aSAFE_FAULT_STAT, 16, 6⟩
def SAFE_FAULT_EN_warn : Fld := ⟨aSAFE_FAULT_EN, 16, 6⟩
def SAFE_FAULTB_level : Fld := ⟨aSAFE_FAULTB, 0, 2⟩
def SAFE_FAULTB_test : Fld := ⟨aSAFE_FAULTB, 8, 1⟩
def SAFE_SUPPLY_warning : Fld := ⟨aSAFE_SUPPLY, 0, 8⟩
def SAFE_BROWNOUT_LIMIT_us : Fld := ⟨aSAFE_BROWNOUT_LIMIT, 0, 16⟩
def SAFE_EPISODES_count : Fld := ⟨aSAFE_EPISODES, 0, 16⟩
def SAFE_EPISODES_last_rail : Fld := ⟨aSAFE_EPISODES, 16, 3⟩
def SAFE_EPISODE_LAST_us : Fld := ⟨aSAFE_EPISODE_LAST, 0, 32⟩
def SAFE_BADGER_lost : Fld := ⟨aSAFE_BADGER, 0, 1⟩
def SAFE_BADGER_last_bit : Fld := ⟨aSAFE_BADGER, 8, 7⟩
def SAFE_BADGER_mismatches : Fld := ⟨aSAFE_BADGER, 16, 16⟩
def SAFE_SEU_vote_fail : Fld := ⟨aSAFE_SEU, 0, 1⟩
def SAFE_ECC_corrected : Fld := ⟨aSAFE_ECC, 0, 16⟩
def SAFE_ECC_uncorrectable : Fld := ⟨aSAFE_ECC, 16, 16⟩
def SAFE_ECC_LAST_memory : Fld := ⟨aSAFE_ECC_LAST, 0, 4⟩
def SAFE_ECC_LAST_line : Fld := ⟨aSAFE_ECC_LAST, 6, 26⟩
def SAFE_THERMAL_warn : Fld := ⟨aSAFE_THERMAL, 0, 12⟩
def SAFE_THERMAL_crit : Fld := ⟨aSAFE_THERMAL, 16, 12⟩
def SAFE_THERMAL_STAT_hottest : Fld := ⟨aSAFE_THERMAL_STAT, 0, 12⟩
def SAFE_THERMAL_STAT_channel : Fld := ⟨aSAFE_THERMAL_STAT, 12, 2⟩
def SAFE_THERMAL_STAT_warn : Fld := ⟨aSAFE_THERMAL_STAT, 16, 1⟩
def SAFE_THERMAL_STAT_crit : Fld := ⟨aSAFE_THERMAL_STAT, 17, 1⟩
def SAFE_THERMAL_STAT_stale : Fld := ⟨aSAFE_THERMAL_STAT, 18, 1⟩
def SAFE_LOG_CFG_entries : Fld := ⟨aSAFE_LOG_CFG, 0, 6⟩
def SAFE_LOG_STATUS_held : Fld := ⟨aSAFE_LOG_STATUS, 0, 10⟩
def SAFE_LOG_STATUS_lost : Fld := ⟨aSAFE_LOG_STATUS, 16, 16⟩
def SAFE_IRQ_STAT_fault : Fld := ⟨aSAFE_IRQ_STAT, 0, 1⟩
def SAFE_IRQ_STAT_warning : Fld := ⟨aSAFE_IRQ_STAT, 1, 1⟩
def SAFE_IRQ_STAT_ecc : Fld := ⟨aSAFE_IRQ_STAT, 2, 1⟩
def SAFE_IRQ_STAT_episode : Fld := ⟨aSAFE_IRQ_STAT, 3, 1⟩
def SAFE_IRQ_STAT_log_lost : Fld := ⟨aSAFE_IRQ_STAT, 4, 1⟩
def CNT_OVF_wrapped : Fld := ⟨aCNT_OVF, 0, 32⟩
def CNT_IRQ_STAT_snapshot : Fld := ⟨aCNT_IRQ_STAT, 0, 1⟩
def CNT_IRQ_STAT_wrap : Fld := ⟨aCNT_IRQ_STAT, 1, 1⟩
def CNT_CFG_source (n : Nat) : Fld := ⟨(aCNT_CFG n), 0, 7⟩
def CNT_CFG_edge (n : Nat) : Fld := ⟨(aCNT_CFG n), 8, 2⟩
def CNT_CFG_en (n : Nat) : Fld := ⟨(aCNT_CFG n), 12, 1⟩

/-- The SYS block. -/
def regsSYS : List RegRow := [
  ⟨0x000000, [], 0x50244D01, 0x0, 0x0, 0x0, 0x0, .none⟩,
  ⟨0x000004, [], 0xB1, 0x0, 0x0, 0x0, 0x0, .none⟩,
  ⟨0x000008, [], 0x302, 0x0, 0x0, 0x0, 0x0, .none⟩,
  ⟨0x00000C, [], 0x0, 0x0, 0x0, 0x0, 0x0, .none⟩,
  ⟨0x000010, [], 0x0, 0x0, 0x0, 0x0, 0x0, .none⟩,
  ⟨0x000014, [], 0x0, 0x0, 0x0, 0x0, 0x0, .none⟩,
  ⟨0x000018, [], 0x0, 0x0, 0x0, 0x0, 0x0, .none⟩,
  ⟨0x00001C, [], 0x0, 0x0, 0x0, 0x0, 0x0, .none⟩,
  ⟨0x000020, [], 0x0, 0x0, 0x0, 0xFFFFFFFF, 0x0, .none⟩,
  ⟨0x000024, [], 0x0, 0x0, 0x0, 0x0, 0x0, .none⟩,
  ⟨0x000028, [], 0x0, 0x0, 0x0, 0x0, 0x0, .none⟩,
  ⟨0x000100, [], 0x0, 0x0, 0x0, 0x0, 0x0, .none⟩,
  ⟨0x000104, [], 0x0, 0x3FFFF, 0x0, 0x0, 0x0, .none⟩,
  ⟨0x000108, [], 0x0, 0x0, 0x3, 0x0, 0x0, .none⟩,
  ⟨0x00010C, [], 0x0, 0x7, 0x0, 0x0, 0x0, .none⟩]

/-- The CLK block. -/
def regsCLK : List RegRow := [
  ⟨0x010000, [], 0x0, 0x0, 0x0, 0x0, 0x0, .none⟩,
  ⟨0x010004, [], 0x0, 0x0, 0x0, 0x0, 0x0, .none⟩,
  ⟨0x010008, [], 0x0, 0x0, 0x0, 0x0, 0x0, .none⟩,
  ⟨0x01000C, [], 0x0, 0x0, 0x0, 0x0, 0x0, .none⟩,
  ⟨0x010010, [], 0x10, 0x10, 0x0, 0x3, 0x0, .none⟩,
  ⟨0x010014, [], 0x10, 0x10, 0x0, 0x3, 0x0, .none⟩,
  ⟨0x010018, [], 0x0, 0x0, 0x0, 0x0, 0x0, .none⟩,
  ⟨0x01001C, [], 0x0, 0x0, 0x0, 0x0, 0x0, .none⟩,
  ⟨0x010020, [], 0x0, 0x0, 0x1FF, 0x0, 0x0, .none⟩,
  ⟨0x010024, [], 0x0, 0x1FF, 0x0, 0x0, 0x0, .none⟩,
  ⟨0x010028, [], 0x0, 0x0, 0x0, 0x0, 0x0, .none⟩,
  ⟨0x010100, [], 0x0, 0x0, 0x0, 0x0, 0x0, .none⟩,
  ⟨0x010110, [], 0x0, 0x0, 0x0, 0x0, 0x0, .none⟩,
  ⟨0x010120, [], 0x0, 0x103FF, 0x0, 0x0, 0x103FF, .commitA⟩,
  ⟨0x010130, [], 0x0, 0x0, 0x0, 0x0, 0x0, .none⟩,
  ⟨0x010140, [], 0x0, 0x0, 0x0, 0x0, 0x0, .none⟩,
  ⟨0x010150, [], 0x0, 0x103FF, 0x0, 0x0, 0x103FF, .commitA⟩,
  ⟨0x010160, [], 0x0, 0x0, 0x0, 0x0, 0x0, .none⟩,
  ⟨0x010170, [], 0x0, 0x103FF, 0x0, 0x0, 0x103FF, .commitA⟩,
  ⟨0x010104, [(16, 8)], 0x0, 0x7FF, 0x0, 0x0, 0x7FF, .commitA⟩,
  ⟨0x010108, [(16, 8)], 0x0, 0x0, 0x0, 0x0, 0x0, .none⟩,
  ⟨0x01010C, [(16, 8)], 0x0, 0x0, 0x0, 0x0, 0x0, .none⟩,
  ⟨0x010200, [(16, 2)], 0x0, 0x0, 0x0, 0x0, 0x0, .none⟩,
  ⟨0x010204, [(16, 2)], 0x0, 0x7FF, 0x0, 0x0, 0x7FF, .commitB⟩,
  ⟨0x010208, [(16, 2)], 0x0, 0x0, 0x0, 0x0, 0x0, .none⟩,
  ⟨0x01020C, [(16, 2)], 0x0, 0x0, 0x0, 0x0, 0x0, .none⟩]

/-- The PWR block. -/
def regsPWR : List RegRow := [
  ⟨0x020000, [], 0x0, 0x0, 0x0, 0xFF0F, 0x0, .none⟩,
  ⟨0x020004, [], 0x32, 0x0, 0x0, 0x0, 0x0, .none⟩,
  ⟨0x020008, [], 0x0, 0x3FF, 0x0, 0x0, 0x0, .none⟩,
  ⟨0x02000C, [], 0x0, 0x0, 0x0, 0x0, 0x0, .none⟩,
  ⟨0x020010, [], 0x7, 0x7, 0x0, 0x0, 0x0, .none⟩,
  ⟨0x020014, [], 0x0, 0x0, 0x0, 0x0, 0x0, .none⟩,
  ⟨0x020018, [], 0x0, 0x0, 0x7, 0x0, 0x0, .none⟩,
  ⟨0x02001C, [], 0x0, 0x7, 0x0, 0x0, 0x0, .none⟩]

/-- The CFG block. -/
def regsCFG : List RegRow := [
  ⟨0x030000, [], 0x0, 0x0, 0x0, 0x0, 0x0, .none⟩,
  ⟨0x030004, [], 0x0, 0x0, 0x0, 0x0, 0x0, .none⟩,
  ⟨0x030008, [], 0x0, 0x0, 0x0, 0x0, 0x0, .none⟩,
  ⟨0x03000C, [], 0x0, 0x0, 0x0, 0x0, 0x0, .none⟩,
  ⟨0x030010, [], 0x0, 0x7FFFFC, 0x0, 0x0, 0x0, .none⟩,
  ⟨0x030014, [], 0x0, 0x0, 0x0, 0xFFFFFFFF, 0x0, .none⟩,
  ⟨0x030018, [], 0x0, 0x0, 0x0, 0x7, 0x0, .none⟩,
  ⟨0x03001C, [], 0x0, 0xFFFFFFFF, 0x0, 0x0, 0x0, .none⟩,
  ⟨0x030020, [], 0x0, 0x0, 0x0, 0x0, 0x0, .none⟩,
  ⟨0x030024, [], 0x0, 0x0, 0x0, 0x0, 0x0, .none⟩,
  ⟨0x030028, [], 0x0, 0x0, 0x0, 0x0, 0x0, .none⟩,
  ⟨0x03002C, [], 0x0, 0x0, 0xF, 0x0, 0x0, .none⟩,
  ⟨0x030030, [], 0x0, 0xF, 0x0, 0x0, 0x0, .none⟩]

/-- The NVM block. -/
def regsNVM : List RegRow := [
  ⟨0x040000, [], 0x0, 0x0, 0x0, 0x0, 0x0, .none⟩,
  ⟨0x040004, [], 0x0, 0x1FFFF, 0x0, 0x0, 0x0, .none⟩,
  ⟨0x040008, [], 0x0, 0x0, 0x0, 0x0, 0x0, .none⟩,
  ⟨0x04000C, [], 0x0, 0xFFFFFFFF, 0x0, 0x0, 0x0, .none⟩,
  ⟨0x040010, [], 0x0, 0x0, 0x0, 0x7, 0x0, .none⟩,
  ⟨0x040014, [], 0x0, 0x0, 0x0, 0xFFFFFFFF, 0x0, .none⟩,
  ⟨0x040018, [], 0x0, 0x0, 0x0, 0x0, 0x0, .none⟩,
  ⟨0x04001C, [], 0x0, 0x0, 0x0, 0x0, 0x0, .none⟩,
  ⟨0x040020, [], 0x0, 0x0, 0x3, 0x0, 0x0, .none⟩,
  ⟨0x040024, [], 0x0, 0x3, 0x0, 0x0, 0x0, .none⟩]

/-- The CTL block. -/
def regsCTL : List RegRow := [
  ⟨0x050000, [], 0x3, 0x7, 0x0, 0x0, 0x0, .none⟩,
  ⟨0x050004, [], 0x0, 0x0, 0x0, 0x1FFFFF, 0x0, .none⟩,
  ⟨0x050008, [], 0x0, 0x0, 0x0, 0x1FFFFF, 0x0, .none⟩,
  ⟨0x05000C, [], 0x0, 0x0, 0x0, 0xFFFFFFFF, 0x0, .none⟩,
  ⟨0x050010, [], 0x0, 0x0, 0x0, 0x0, 0x0, .none⟩,
  ⟨0x050014, [], 0x0, 0x0, 0x0, 0x0, 0x0, .none⟩,
  ⟨0x050018, [], 0x0, 0x0, 0x0, 0x0, 0x0, .none⟩,
  ⟨0x05001C, [], 0x0, 0x0, 0x0, 0x0, 0x0, .none⟩,
  ⟨0x050020, [], 0x0, 0x0, 0x1F, 0x0, 0x0, .none⟩,
  ⟨0x050024, [], 0x0, 0x1F, 0x0, 0x0, 0x0, .none⟩]

/-- The SHT block. -/
def regsSHT : List RegRow := [
  ⟨0x100000, [], 0x0, 0xF, 0x0, 0x0, 0x2, .frame⟩,
  ⟨0x100004, [], 0x0, 0x0, 0x0, 0x0, 0x0, .none⟩,
  ⟨0x100008, [], 0x0, 0xFFFF, 0x0, 0x0, 0xFFFF, .frame⟩,
  ⟨0x10000C, [], 0x0, 0xFFFFFFFF, 0x0, 0x0, 0xFFFFFFFF, .frame⟩,
  ⟨0x100010, [(4, 4)], 0x0, 0xFFFFFFFF, 0x0, 0x0, 0xFFFFFFFF, .frame⟩,
  ⟨0x100020, [], 0x0, 0xF, 0x0, 0x0, 0xF, .frame⟩,
  ⟨0x100024, [], 0x0, 0xF, 0x0, 0x0, 0x0, .none⟩,
  ⟨0x100028, [], 0x0, 0x0, 0x0, 0x0, 0x0, .none⟩,
  ⟨0x10002C, [], 0x107400, 0xFFFFFF, 0x0, 0x0, 0x0, .none⟩,
  ⟨0x100030, [], 0x7FF0000, 0x7FF07FF, 0x0, 0x0, 0x0, .none⟩,
  ⟨0x100034, [], 0xFFFFFF, 0xFFFFFF, 0x0, 0x0, 0x0, .none⟩,
  ⟨0x100038, [], 0x8, 0xFFFFFFFF, 0x0, 0x0, 0x0, .none⟩,
  ⟨0x10003C, [], 0xFFFFFFFF, 0xFFFFFFFF, 0x0, 0x0, 0x0, .none⟩,
  ⟨0x100040, [], 0x808080, 0xFFFFFF, 0x0, 0x0, 0x0, .none⟩,
  ⟨0x100044, [(4, 4)], 0x0, 0x0, 0x0, 0x0, 0x0, .none⟩,
  ⟨0x100054, [], 0x0, 0x0, 0x0, 0x0, 0x0, .none⟩,
  ⟨0x100058, [], 0x0, 0x0, 0x0, 0x0, 0x0, .none⟩,
  ⟨0x10005C, [], 0x0, 0x0, 0x0, 0x0, 0x0, .none⟩,
  ⟨0x100060, [], 0x0, 0x0, 0x1F, 0x0, 0x0, .none⟩,
  ⟨0x100064, [], 0x0, 0x3F, 0x0, 0x0, 0x0, .none⟩]

/-- The WIN block. -/
def regsWIN : List RegRow := [
  ⟨0x110000, [(32, 1024), (4, 8)], 0x0, 0x0, 0x0, 0x0, 0x0, .none⟩,
  ⟨0x118000, [(4, 32)], 0x0, 0xFFFFFFFF, 0x0, 0x0, 0xFFFFFFFF, .frame⟩,
  ⟨0x118080, [(4, 32)], 0x0, 0x0, 0x0, 0x0, 0x0, .none⟩,
  ⟨0x118100, [], 0x0, 0x0, 0x0, 0x0, 0x0, .none⟩,
  ⟨0x118104, [], 0x0, 0x0, 0x0, 0x0, 0x0, .none⟩,
  ⟨0x118108, [], 0x0, 0x0, 0x1, 0x0, 0x0, .none⟩,
  ⟨0x11810C, [], 0x0, 0x1, 0x0, 0x0, 0x0, .none⟩]

/-- The RDO block. -/
def regsRDO : List RegRow := [
  ⟨0x120000, [], 0x0, 0x0, 0x0, 0x0, 0x0, .none⟩,
  ⟨0x120004, [], 0x0, 0x3, 0x0, 0x0, 0x3, .frame⟩,
  ⟨0x120008, [], 0xFFF, 0xFFF0FFF, 0x0, 0x0, 0x0, .none⟩,
  ⟨0x12000C, [], 0x0, 0x0, 0x0, 0x0, 0x0, .none⟩,
  ⟨0x120010, [], 0x0, 0xFFF1, 0x0, 0x0, 0xFFF1, .frame⟩,
  ⟨0x120014, [], 0x0, 0x7FF07FF, 0x0, 0x0, 0x7FF07FF, .frame⟩,
  ⟨0x120018, [], 0x0, 0x0, 0x0, 0xFF00FF1F, 0x0, .none⟩,
  ⟨0x12001C, [], 0x0, 0x0, 0x0, 0x0, 0x0, .none⟩,
  ⟨0x120020, [], 0x0, 0x0, 0x0, 0x0, 0x0, .none⟩,
  ⟨0x120024, [], 0x0, 0x0, 0x0, 0x0, 0x0, .none⟩,
  ⟨0x120028, [], 0x0, 0x0, 0x0, 0x0, 0x0, .none⟩,
  ⟨0x12002C, [], 0x0, 0x0, 0x1F, 0x0, 0x0, .none⟩,
  ⟨0x120030, [], 0x0, 0x1F, 0x0, 0x0, 0x0, .none⟩,
  ⟨0x120100, [(4, 24)], 0xFFE1, 0x0, 0x0, 0x0, 0x0, .none⟩,
  ⟨0x120200, [(4, 24)], 0x0, 0x0, 0x0, 0x0, 0x0, .none⟩,
  ⟨0x121000, [(32, 24), (4, 8)], 0x0, 0x0, 0x0, 0x0, 0x0, .none⟩,
  ⟨0x122000, [(32, 24), (4, 8)], 0x0, 0x0, 0x0, 0x0, 0x0, .none⟩]

/-- The CAL block. -/
def regsCAL : List RegRow := [
  ⟨0x130000, [], 0x0, 0x1, 0x0, 0x0, 0x0, .none⟩,
  ⟨0x130004, [], 0x0, 0x0, 0x0, 0x0, 0x0, .none⟩,
  ⟨0x130008, [], 0xFF, 0xFF, 0x0, 0x0, 0x0, .none⟩,
  ⟨0x13000C, [], 0x0, 0x0, 0xFFFFFF, 0x0, 0x0, .none⟩,
  ⟨0x130010, [], 0x0, 0x0, 0x0, 0x0, 0x0, .none⟩,
  ⟨0x130014, [], 0x0, 0xFF1F, 0x0, 0x0, 0x0, .none⟩,
  ⟨0x130018, [], 0x0, 0x0, 0x0, 0x0, 0x0, .none⟩,
  ⟨0x13001C, [], 0x0, 0x0, 0x0, 0x0, 0x0, .none⟩,
  ⟨0x130020, [], 0x0, 0x0, 0x0, 0x0, 0x0, .none⟩,
  ⟨0x130024, [(4, 7)], 0x0, 0x0, 0x0, 0x0, 0x0, .none⟩,
  ⟨0x130040, [], 0x0, 0x0, 0x1F, 0x0, 0x0, .none⟩,
  ⟨0x130044, [], 0x0, 0x1F, 0x0, 0x0, 0x0, .none⟩,
  ⟨0x130100, [(4, 24)], 0xFFFFFF, 0x0, 0x0, 0x0, 0x0, .none⟩,
  ⟨0x130200, [(4, 24)], 0x0, 0x0, 0x0, 0x0, 0x0, .none⟩,
  ⟨0x131000, [(256, 24), (4, 57)], 0xFFFFFFFF, 0x0, 0x0, 0x0, 0x0, .none⟩]

/-- The PIPE block. -/
def regsPIPE : List RegRow := [
  ⟨0x140000, [], 0x31, 0x71, 0x0, 0x0, 0x71, .frame⟩,
  ⟨0x140004, [], 0x40, 0xFF, 0x0, 0x0, 0xFF, .frame⟩,
  ⟨0x140008, [], 0x200, 0xFFF, 0x0, 0x0, 0xFFF, .frame⟩,
  ⟨0x14000C, [], 0x24330F3C, 0xFFFF0FFF, 0x0, 0x0, 0xFFFF0FFF, .frame⟩,
  ⟨0x140010, [], 0x4, 0x7, 0x0, 0x0, 0x7, .frame⟩,
  ⟨0x140014, [], 0x0, 0x0, 0x0, 0x0, 0x0, .none⟩,
  ⟨0x140018, [], 0x0, 0x0, 0x0, 0x0, 0x0, .none⟩,
  ⟨0x14001C, [(4, 3)], 0x0, 0x0, 0x0, 0x0, 0x0, .none⟩,
  ⟨0x140028, [], 0x0, 0x0, 0x7, 0x0, 0x0, .none⟩,
  ⟨0x14002C, [], 0x0, 0x7, 0x0, 0x0, 0x0, .none⟩,
  ⟨0x140100, [(32, 4)], 0x40000400, 0xFFFFFFFF, 0x0, 0x0, 0xFFFFFFFF, .frame⟩,
  ⟨0x140104, [(32, 4)], 0x58000800, 0xFFFFFFFF, 0x0, 0x0, 0xFFFFFFFF, .frame⟩,
  ⟨0x140108, [(32, 4)], 0x70001000, 0xFFFFFFFF, 0x0, 0x0, 0xFFFFFFFF, .frame⟩,
  ⟨0x14010C, [(32, 4)], 0x88002000, 0xFFFFFFFF, 0x0, 0x0, 0xFFFFFFFF, .frame⟩,
  ⟨0x140110, [(32, 4)], 0xA0004000, 0xFFFFFFFF, 0x0, 0x0, 0xFFFFFFFF, .frame⟩,
  ⟨0x140114, [(32, 4)], 0xB8008000, 0xFFFFFFFF, 0x0, 0x0, 0xFFFFFFFF, .frame⟩,
  ⟨0x140118, [(32, 4)], 0xD0010000, 0xFFFFFFFF, 0x0, 0x0, 0xFFFFFFFF, .frame⟩,
  ⟨0x14011C, [(32, 4)], 0xE8020000, 0xFFFFFFFF, 0x0, 0x0, 0xFFFFFFFF, .frame⟩,
  ⟨0x141000, [(64, 24), (16, 4), (4, 4)], 0x0, 0x0, 0x0, 0x0, 0x0, .none⟩]

/-- The NPC block. -/
def regsNPC : List RegRow := [
  ⟨0x200000, [], 0x1, 0x3, 0x0, 0x0, 0x3, .frame⟩,
  ⟨0x200004, [], 0x0, 0x0, 0x0, 0x0, 0x0, .none⟩,
  ⟨0x200008, [], 0x0, 0xFFFF, 0x0, 0x0, 0xFFFF, .frame⟩,
  ⟨0x20000C, [], 0x0, 0x0, 0x0, 0x0, 0x0, .none⟩,
  ⟨0x200010, [], 0x0, 0x0, 0x0, 0x0, 0x0, .none⟩,
  ⟨0x200014, [], 0x0, 0x0, 0x1F, 0x0, 0x0, .none⟩,
  ⟨0x200018, [], 0x0, 0x1F, 0x0, 0x0, 0x0, .none⟩,
  ⟨0x20001C, [], 0x0, 0xF1, 0x0, 0x300, 0x0, .none⟩,
  ⟨0x200020, [], 0x0, 0x0, 0x0, 0x0, 0x0, .none⟩,
  ⟨0x200024, [], 0x0, 0x0, 0x0, 0x0, 0x0, .none⟩,
  ⟨0x200040, [(4, 16)], 0x0, 0xFFFFFFFF, 0x0, 0x0, 0xFFFFFFFF, .frame⟩,
  ⟨0x200100, [(16, 16)], 0x0, 0x0, 0x0, 0x0, 0x0, .none⟩,
  ⟨0x200104, [(16, 16)], 0x0, 0x0, 0x0, 0x0, 0x0, .none⟩,
  ⟨0x200108, [(16, 16)], 0x0, 0x0, 0x0, 0x0, 0x0, .none⟩,
  ⟨0x20010C, [(16, 16)], 0xFFFFFFFF, 0x0, 0x0, 0x0, 0x0, .none⟩,
  ⟨0x200200, [(32, 16)], 0x0, 0x0, 0x0, 0x0, 0x0, .none⟩,
  ⟨0x200204, [(32, 16), (4, 3)], 0x0, 0x0, 0x0, 0x0, 0x0, .none⟩,
  ⟨0x200210, [(32, 16)], 0x0, 0x0, 0x0, 0x0, 0x0, .none⟩,
  ⟨0x200214, [(32, 16)], 0x0, 0x0, 0x0, 0x0, 0x0, .none⟩]

/-- The EVF block. -/
def regsEVF : List RegRow := [
  ⟨0x300000, [], 0x0, 0xFF, 0x0, 0x0, 0x0, .none⟩,
  ⟨0x300004, [], 0x0, 0x0, 0x0, 0xFFFFFFFF, 0x0, .none⟩,
  ⟨0x300008, [], 0x0, 0x0, 0x0, 0xFFFF, 0x0, .none⟩,
  ⟨0x30000C, [], 0x0, 0x7FF, 0x0, 0x0, 0x7FF, .frame⟩,
  ⟨0x300010, [(4, 3)], 0x0, 0x0, 0x0, 0x0, 0x0, .none⟩,
  ⟨0x30001C, [], 0x0, 0x0, 0x0, 0x0, 0x0, .none⟩,
  ⟨0x300020, [], 0x0, 0x0, 0x0, 0x0, 0x0, .none⟩,
  ⟨0x300024, [], 0x0, 0x0, 0x0, 0x0, 0x0, .none⟩,
  ⟨0x300028, [], 0x0, 0x0, 0x0, 0x0, 0x0, .none⟩,
  ⟨0x30002C, [], 0x0, 0x0, 0x0, 0x0, 0x0, .none⟩,
  ⟨0x300030, [], 0x0, 0x0, 0x1FFF, 0x0, 0x0, .none⟩,
  ⟨0x300034, [], 0x0, 0x1FFF, 0x0, 0x0, 0x0, .none⟩,
  ⟨0x300040, [], 0x0, 0xFF, 0x0, 0x0, 0x0, .none⟩,
  ⟨0x300044, [], 0x0, 0x1, 0x0, 0x2, 0x0, .none⟩,
  ⟨0x300048, [], 0x0, 0x0, 0x0, 0x0, 0x0, .none⟩,
  ⟨0x30004C, [], 0x0, 0x0, 0x0, 0x0, 0x0, .none⟩,
  ⟨0x300050, [], 0x0, 0x0, 0x0, 0x0, 0x0, .none⟩,
  ⟨0x300060, [(4, 8)], 0x0, 0xFFF, 0x0, 0x0, 0x0, .none⟩,
  ⟨0x300100, [(64, 8)], 0x0, 0xFFFFFF13, 0x0, 0x4, 0x0, .none⟩,
  ⟨0x300104, [(64, 8)], 0x0, 0xFFFFFFFF, 0x0, 0x0, 0x0, .none⟩,
  ⟨0x300108, [(64, 8)], 0xFFFFFFFF, 0xFFFFFFFF, 0x0, 0x0, 0x0, .none⟩,
  ⟨0x30010C, [(64, 8)], 0x0, 0xFFFFFFFF, 0x0, 0x0, 0x0, .none⟩,
  ⟨0x300110, [(64, 8)], 0x0, 0xFFFFFFFF, 0x0, 0x0, 0x0, .none⟩,
  ⟨0x300114, [(64, 8)], 0x3E8, 0xFFFFFF, 0x0, 0x0, 0x0, .none⟩,
  ⟨0x300118, [(64, 8)], 0x0, 0x0, 0x0, 0x0, 0x0, .none⟩,
  ⟨0x300120, [(64, 8)], 0x0, 0x0, 0x0, 0x0, 0x0, .none⟩,
  ⟨0x300124, [(64, 8)], 0x0, 0x0, 0x0, 0x0, 0x0, .none⟩,
  ⟨0x300400, [(4, 24)], 0x0, 0x0, 0x0, 0x0, 0x0, .none⟩]

/-- The TIME block. -/
def regsTIME : List RegRow := [
  ⟨0x310000, [], 0x0, 0x0, 0x0, 0x0, 0x0, .none⟩,
  ⟨0x310004, [], 0x0, 0x0, 0x0, 0x0, 0x0, .none⟩,
  ⟨0x310008, [], 0xA000000, 0xFFFFFFFF, 0x0, 0x0, 0x0, .none⟩,
  ⟨0x31000C, [], 0x2, 0x0, 0x0, 0x0, 0x0, .none⟩,
  ⟨0x310010, [], 0x70, 0x1F0, 0x0, 0x7, 0x0, .none⟩,
  ⟨0x310014, [], 0x0, 0xFFFFFFFF, 0x0, 0x0, 0x0, .none⟩,
  ⟨0x310018, [], 0x0, 0xFFFFFFFF, 0x0, 0x0, 0x0, .none⟩,
  ⟨0x31001C, [], 0x2710, 0xFFFFFFFF, 0x0, 0x0, 0x0, .none⟩,
  ⟨0x310020, [], 0x0, 0xFFFFFFFF, 0x0, 0x0, 0x0, .none⟩,
  ⟨0x310024, [], 0x0, 0x0, 0x0, 0x0, 0x0, .none⟩,
  ⟨0x310028, [], 0x0, 0x0, 0x0, 0x0, 0x0, .none⟩,
  ⟨0x31002C, [], 0x0, 0x0, 0x0, 0x0, 0x0, .none⟩,
  ⟨0x310030, [], 0x0, 0x0, 0x0, 0x0, 0x0, .none⟩,
  ⟨0x310040, [(16, 2)], 0x0, 0xFFFFFFFF, 0x0, 0x0, 0x0, .none⟩,
  ⟨0x310044, [(16, 2)], 0x0, 0xFFFFFFFF, 0x0, 0x0, 0x0, .none⟩]

/-- The ARC block. -/
def regsARC : List RegRow := [
  ⟨0x320000, [], 0x0, 0x0, 0x0, 0x0, 0x0, .none⟩,
  ⟨0x320004, [], 0x0, 0x0, 0x0, 0xFF, 0x0, .none⟩,
  ⟨0x320008, [], 0x0, 0x0, 0x0, 0x0, 0x0, .none⟩,
  ⟨0x32000C, [], 0x0, 0xFFFFFFFF, 0x0, 0x0, 0x0, .none⟩,
  ⟨0x320010, [], 0x0, 0x3FFFFC0, 0x0, 0x0, 0x0, .none⟩,
  ⟨0x320014, [], 0x1, 0x0, 0x0, 0x0, 0x0, .none⟩,
  ⟨0x320018, [], 0x0, 0x0, 0x0, 0x0, 0x0, .none⟩,
  ⟨0x32001C, [], 0x0, 0x0, 0x0, 0x0, 0x0, .none⟩,
  ⟨0x320020, [], 0x0, 0x0, 0x3F, 0x0, 0x0, .none⟩,
  ⟨0x320024, [], 0x0, 0x3F, 0x0, 0x0, 0x0, .none⟩,
  ⟨0x320040, [(4, 16)], 0x0, 0x0, 0x0, 0x0, 0x0, .none⟩,
  ⟨0x320100, [(32, 16)], 0x0, 0x0, 0x0, 0x0, 0x0, .none⟩,
  ⟨0x320104, [(32, 16)], 0x0, 0x0, 0x0, 0x0, 0x0, .none⟩,
  ⟨0x320108, [(32, 16)], 0x0, 0x0, 0x0, 0x0, 0x0, .none⟩,
  ⟨0x32010C, [(32, 16)], 0x0, 0x0, 0x0, 0x0, 0x0, .none⟩,
  ⟨0x320110, [(32, 16)], 0x0, 0x0, 0x0, 0x0, 0x0, .none⟩,
  ⟨0x320114, [(32, 16)], 0x0, 0x0, 0x0, 0x0, 0x0, .none⟩,
  ⟨0x320118, [(32, 16)], 0x0, 0x0, 0x0, 0x0, 0x0, .none⟩,
  ⟨0x32011C, [(32, 16)], 0x0, 0x0, 0x0, 0x0, 0x0, .none⟩]

/-- The RING block. -/
def regsRING : List RegRow := [
  ⟨0x330000, [(64, 256)], 0x0, 0x0, 0x0, 0x0, 0x0, .none⟩,
  ⟨0x330004, [(64, 256)], 0x0, 0x0, 0x0, 0x0, 0x0, .none⟩,
  ⟨0x330008, [(64, 256)], 0x0, 0x0, 0x0, 0x0, 0x0, .none⟩,
  ⟨0x33000C, [(64, 256)], 0x0, 0xFFFF0001, 0x0, 0x0, 0x1, .frame⟩,
  ⟨0x330010, [(64, 256)], 0x0, 0x0, 0x0, 0x0, 0x0, .none⟩,
  ⟨0x330014, [(64, 256)], 0x0, 0x0, 0x0, 0x0, 0x0, .none⟩,
  ⟨0x330018, [(64, 256)], 0x0, 0x0, 0x0, 0x0, 0x0, .none⟩,
  ⟨0x33001C, [(64, 256)], 0x0, 0x0, 0x0, 0x0, 0x0, .none⟩,
  ⟨0x334000, [(16, 16)], 0x0, 0x0, 0x0, 0x0, 0x0, .none⟩,
  ⟨0x334004, [(16, 16)], 0x0, 0x0, 0x0, 0x0, 0x0, .none⟩,
  ⟨0x334100, [], 0x0, 0x0, 0x0, 0x0, 0x0, .none⟩,
  ⟨0x334104, [], 0x0, 0x0, 0x1F, 0x0, 0x0, .none⟩,
  ⟨0x334108, [], 0x0, 0x1F, 0x0, 0x0, 0x0, .none⟩,
  ⟨0x334140, [(4, 8)], 0x0, 0x0, 0xFFFFFFFF, 0x0, 0x0, .none⟩,
  ⟨0x334160, [(4, 8)], 0x0, 0x0, 0xFFFFFFFF, 0x0, 0x0, .none⟩]

/-- The LNK block. -/
def regsLNK : List RegRow := [
  ⟨0x340000, [], 0x40101, 0xFFF0D, 0x0, 0x2, 0x0, .none⟩,
  ⟨0x340004, [], 0x0, 0x0, 0x0, 0x0, 0x0, .none⟩,
  ⟨0x340008, [], 0x0, 0xFF, 0x0, 0x0, 0x0, .none⟩,
  ⟨0x34000C, [], 0x80028, 0xFFFFF, 0x0, 0x0, 0x0, .none⟩,
  ⟨0x340010, [], 0x0, 0x0, 0x0, 0x0, 0x0, .none⟩,
  ⟨0x340014, [], 0x0, 0x0, 0x0, 0x0, 0x0, .none⟩,
  ⟨0x340018, [], 0x0, 0x0, 0x0, 0x0, 0x0, .none⟩,
  ⟨0x34001C, [], 0x10, 0xFF, 0x0, 0x0, 0x0, .none⟩,
  ⟨0x340020, [], 0x0, 0x0, 0x0, 0x0, 0x0, .none⟩,
  ⟨0x340024, [], 0x0, 0x0, 0x0, 0x0, 0x0, .none⟩,
  ⟨0x340028, [], 0x0, 0x0, 0x3FF, 0x0, 0x0, .none⟩,
  ⟨0x34002C, [], 0x0, 0x3FF, 0x0, 0x0, 0x0, .none⟩,
  ⟨0x340030, [], 0x0, 0xFF, 0x0, 0x100, 0x0, .none⟩,
  ⟨0x340034, [], 0x0, 0x0, 0x0, 0x0, 0x0, .none⟩,
  ⟨0x340038, [], 0x0, 0x0, 0x0, 0x0, 0x0, .none⟩,
  ⟨0x34003C, [], 0x0, 0x0, 0x0, 0x0, 0x0, .none⟩]

/-- The HKA block. -/
def regsHKA : List RegRow := [
  ⟨0x350000, [], 0x0, 0x1F03, 0x0, 0x0, 0x0, .none⟩,
  ⟨0x350004, [], 0x0, 0x0, 0x0, 0x0, 0x0, .none⟩,
  ⟨0x350010, [(16, 2)], 0x70000, 0xFFFFF, 0x0, 0x0, 0x0, .none⟩,
  ⟨0x350014, [(16, 2)], 0x7D00, 0xFFFFFF, 0x0, 0x0, 0x0, .none⟩,
  ⟨0x350018, [(16, 2)], 0x0, 0x0, 0x0, 0x3, 0x0, .none⟩,
  ⟨0x35001C, [(16, 2)], 0x0, 0xFFFFFFFF, 0x0, 0x0, 0x0, .none⟩,
  ⟨0x350030, [(4, 2)], 0x0, 0x0, 0x0, 0x0, 0x0, .none⟩,
  ⟨0x350040, [(4, 32)], 0x0, 0x0, 0x0, 0x0, 0x0, .none⟩,
  ⟨0x3500C0, [(16, 8)], 0x0, 0xFFF003F, 0x0, 0x0, 0x0, .none⟩,
  ⟨0x3500C4, [(16, 8)], 0xFFF0000, 0xFFF0FFF, 0x0, 0x0, 0x0, .none⟩,
  ⟨0x3500C8, [(16, 8)], 0x0, 0x0, 0x0, 0x0, 0x0, .none⟩,
  ⟨0x350140, [], 0x0, 0xFFFFFFFF, 0x0, 0x0, 0x0, .none⟩,
  ⟨0x350144, [], 0x0, 0x0, 0x0, 0x0, 0x0, .none⟩,
  ⟨0x350148, [], 0x0, 0x0, 0x0, 0x0, 0x0, .none⟩,
  ⟨0x35014C, [], 0xFFFF, 0x0, 0x0, 0x0, 0x0, .none⟩,
  ⟨0x350150, [], 0x0, 0x0, 0x3FFF, 0x0, 0x0, .none⟩,
  ⟨0x350154, [], 0x0, 0x3FFF, 0x0, 0x0, 0x0, .none⟩]

/-- The PIO block. -/
def regsPIO : List RegRow := [
  ⟨0x360000, [], 0x0, 0xFF, 0x0, 0xFFFF00, 0x0, .none⟩,
  ⟨0x360004, [], 0x0, 0x0, 0x0, 0x0, 0x0, .none⟩,
  ⟨0x360008, [], 0x0, 0x0, 0x0, 0x0, 0x0, .none⟩,
  ⟨0x36000C, [], 0x0, 0x0, 0x0, 0x0, 0x0, .none⟩,
  ⟨0x360010, [], 0x0, 0x0, 0x3FFFF, 0x0, 0x0, .none⟩,
  ⟨0x360014, [], 0x0, 0x3FFFF, 0x0, 0x0, 0x0, .none⟩,
  ⟨0x360100, [(64, 8)], 0x0, 0x3F, 0x0, 0x0, 0x0, .none⟩,
  ⟨0x360104, [(64, 8)], 0x0, 0xFFFF, 0x0, 0x0, 0x0, .none⟩,
  ⟨0x360108, [(64, 8)], 0x0, 0x0, 0x0, 0xFFFFFFFF, 0x0, .none⟩,
  ⟨0x36010C, [(64, 8)], 0x0, 0x0, 0x0, 0x0, 0x0, .none⟩,
  ⟨0x360110, [(64, 8)], 0x0, 0x0, 0x0, 0xFFFFFFFF, 0x0, .none⟩,
  ⟨0x360114, [(64, 8)], 0x0, 0x0, 0x0, 0x0, 0x0, .none⟩,
  ⟨0x360118, [(64, 8)], 0x0, 0x0, 0x0, 0x0, 0x0, .none⟩,
  ⟨0x36011C, [(64, 8)], 0x0, 0x0, 0x0, 0x0, 0x0, .none⟩,
  ⟨0x360120, [(64, 8)], 0x0, 0x0, 0x0, 0x0, 0x0, .none⟩,
  ⟨0x36012C, [(64, 8)], 0x0, 0x0, 0x0, 0x0, 0x0, .none⟩]

/-- The SAFE block. -/
def regsSAFE : List RegRow := [
  ⟨0x370000, [], 0x0, 0x0, 0x3F00FF, 0x0, 0x0, .none⟩,
  ⟨0x370004, [], 0x3B00FF, 0x3F0000, 0x0, 0x0, 0x0, .none⟩,
  ⟨0x370008, [], 0x2, 0x100, 0x0, 0x0, 0x0, .none⟩,
  ⟨0x37000C, [], 0x0, 0x0, 0x0, 0x0, 0x0, .none⟩,
  ⟨0x370010, [], 0x3E8, 0xFFFF, 0x0, 0x0, 0x0, .none⟩,
  ⟨0x370014, [], 0x0, 0x0, 0x0, 0x0, 0x0, .none⟩,
  ⟨0x370018, [], 0x0, 0x0, 0x0, 0x0, 0x0, .none⟩,
  ⟨0x37001C, [], 0x0, 0x0, 0x0, 0x0, 0x0, .none⟩,
  ⟨0x370020, [], 0x0, 0x0, 0x0, 0x0, 0x0, .none⟩,
  ⟨0x370024, [], 0x0, 0x0, 0x0, 0x0, 0x0, .none⟩,
  ⟨0x370028, [], 0x0, 0x0, 0x0, 0x0, 0x0, .none⟩,
  ⟨0x37002C, [], 0xE100D70, 0xFFF0FFF, 0x0, 0x0, 0x0, .none⟩,
  ⟨0x370030, [], 0x0, 0x0, 0x0, 0x0, 0x0, .none⟩,
  ⟨0x370034, [], 0x3E80020, 0xFFFF003F, 0x0, 0x0, 0x0, .none⟩,
  ⟨0x370038, [], 0x0, 0x0, 0x0, 0xFFFFFFFF, 0x0, .none⟩,
  ⟨0x37003C, [], 0x0, 0x0, 0x0, 0x0, 0x0, .none⟩,
  ⟨0x370040, [], 0x0, 0x0, 0x1F, 0x0, 0x0, .none⟩,
  ⟨0x370044, [], 0x0, 0x1F, 0x0, 0x0, 0x0, .none⟩,
  ⟨0x370100, [(4, 8)], 0x0, 0x0, 0x0, 0x0, 0x0, .none⟩]

/-- The CNT block. -/
def regsCNT : List RegRow := [
  ⟨0x380000, [], 0x0, 0x0, 0x0, 0x1, 0x0, .none⟩,
  ⟨0x380004, [], 0x0, 0x0, 0x0, 0x0, 0x0, .none⟩,
  ⟨0x380008, [], 0x0, 0x0, 0x0, 0x0, 0x0, .none⟩,
  ⟨0x38000C, [], 0x0, 0x0, 0xFFFFFFFF, 0x0, 0x0, .none⟩,
  ⟨0x380010, [], 0x0, 0x0, 0x0, 0xFFFFFFFF, 0x0, .none⟩,
  ⟨0x380014, [], 0x0, 0x0, 0x3, 0x0, 0x0, .none⟩,
  ⟨0x380018, [], 0x0, 0x3, 0x0, 0x0, 0x0, .none⟩,
  ⟨0x380100, [(4, 32)], 0x7F, 0x137F, 0x0, 0x0, 0x0, .none⟩,
  ⟨0x380200, [(8, 32), (4, 2)], 0x0, 0x0, 0x0, 0x0, 0x0, .none⟩,
  ⟨0x380400, [(8, 32), (4, 2)], 0x0, 0x0, 0x0, 0x0, 0x0, .none⟩]

/-- The register blocks in index order, by base address (R194). -/
def regBlocks : List (Nat × List RegRow) := [
  (0x000000, regsSYS),
  (0x010000, regsCLK),
  (0x020000, regsPWR),
  (0x030000, regsCFG),
  (0x040000, regsNVM),
  (0x050000, regsCTL),
  (0x100000, regsSHT),
  (0x110000, regsWIN),
  (0x120000, regsRDO),
  (0x130000, regsCAL),
  (0x140000, regsPIPE),
  (0x200000, regsNPC),
  (0x300000, regsEVF),
  (0x310000, regsTIME),
  (0x320000, regsARC),
  (0x330000, regsRING),
  (0x340000, regsLNK),
  (0x350000, regsHKA),
  (0x360000, regsPIO),
  (0x370000, regsSAFE),
  (0x380000, regsCNT)]

/-- The block index of a register address (R194), none outside every block. -/
def blockOf (a : Nat) : Option Nat :=
  let i := regBlocks.findIdx fun b => b.1 == a / 0x10000 * 0x10000
  if i < regBlocks.length then some i else none

/-- The row that describes the register at `a`. -/
def regRow (a : Nat) : Option RegRow :=
  match blockOf a with
  | none => none
  | some i => ((regBlocks.getD i (0, [])).2).find? (·.covers a)

/-- The value after any reset and before the structure image (R11); 0 where no register is defined (R194). -/
def regReset (a : Nat) : Word := BitVec.ofNat 32 (match regRow a with | some r => r.reset | none => 0)

end Sys2Proof.Machine
end

