-- ==== Sys2Proof/Machine/State.lean ====
section
/-! DEFINITION. The state of the device, as plain data: the register file, the memories, and per block what the
registers do not show. -/

namespace Sys2Proof.Machine

/-! ### Packets, the event log, requests -/

/-- A packet of a ring: the header fields of R494 and the payload. The header CRC and the trailer follow from them. What the
gates of R506 look at is kept with it: the whole device frame number, and a detection packet's reference video ring. -/
structure Packet where
  ring : Nat
  type : Nat
  pflags : Nat
  seq : Nat
  tag : Nat
  frame : Nat
  index : Nat
  payload : List Byte
  number : Nat := 0
  refRing : Nat := 0
deriving DecidableEq, Repr

/-- An event log entry (R659): cause, kind, block, the arguments of words 1 to 5, and the stamp. -/
structure LogEntry where
  cause : Nat
  kind : Nat
  block : Nat
  args : List Nat
  stamp : Nat
deriving DecidableEq, Repr

/-- A request at a task input (R426): the stamp it carries, the forced mark, who made it (0 a trigger unit, 1 a direct
route, 2 a register), the SYS cycle in which it is made, and the time base value of that cycle (R427). -/
structure Request where
  task : Nat
  stamp : Nat
  forced : Bool
  kind : Nat
  who : Nat
  cycle : Nat
  made : Nat := 0
deriving DecidableEq, Repr

/-! ### Supplies, pins, test access (02_package_and_supplies.md) -/

/-- A brownout episode in progress (R653): the rail, its stamp, and whether the limit has expired. -/
structure Episode where
  rail : Nat
  stamp : Nat
  limitDone : Bool
deriving DecidableEq, Repr

/-- Supplies and pins: the latched straps (R48), the levels of RESETB and TESTEN, the TAP's instruction and boundary
register (R54, R55), the bypass register and what the last scan shifted out, and episodes in progress. -/
structure Supply where
  straps : Straps := {}
  resetbLow : Bool := false
  testen : Bool := false
  tapIr : Nat := 0x3F
  extest : Bool := false
  boundary : List Bool := List.replicate 47 false
  captured : List Bool := List.replicate 47 false
  bypass : Bool := false
  tdo : List Bool := []
  episodes : List Episode := []
deriving DecidableEq, Repr

/-! ### Clocks (03_clock_synthesis.md) -/

/-- A synthesizer: running, locked, whether a loss of lock stands (R644 asks for it), whether it is trying to lock; its
plan, ref_div, N and the reference in kHz that the plan assumes; the cycle of the commit that waits, and whether a frame
boundary has passed since (R88, R89). -/
structure Synth where
  running : Bool := false
  locked : Bool := false
  lost : Bool := false
  trying : Bool := false
  refDiv : Nat := 1
  fbN : Nat := 16
  refKhz : Nat := 0
  commitCycle : Nat := 0
  afterBoundary : Bool := false
deriving DecidableEq, Repr

/-- A triplicated setting whose three copies do not vote (R649): its register, whether the value in force or the shadow
failed, copies 1 and 2 (copy 0 is the value that acts, in the register file), and whether the host has written its shadow
since. The three copies of a setting that is not listed are equal. -/
structure VoteFail where
  addr : Nat
  inForce : Bool
  copy1 : Word
  copy2 : Word
  written : Bool := false
deriving DecidableEq, Repr

/-- The clocks: both synthesizers, and the settings whose vote failed. -/
structure Clocks where
  a : Synth := {}
  b : Synth := {}
  voteFails : List VoteFail := []
deriving DecidableEq, Repr

/-! ### Crossroads (14_crossroads_and_triggers.md) -/

/-- A trigger unit: its condition in the previous cycle (R421, R422), a holdoff running (R424), a fire in this cycle, and
the stamp and interpolated mark of the change that made the condition true which still stands (R443). -/
structure TrigUnit where
  prevTrue : Bool := false
  holding : Bool := false
  fired : Bool := false
  since : Option (Nat × Bool) := none
deriving DecidableEq, Repr

/-- A selected pin edge whose delay runs (R450): the pin (0 to 3 TRIG, 4 SYNC_FIRE), its sense, its stamp, and the delay
in PIX cycles. -/
structure Release where
  pin : Nat
  rising : Bool
  stamp : Nat
  delay : Nat
deriving DecidableEq, Repr

/-- The SYNC bus as this unit sees it (R445 to R453): the levels of both lines at the balls, whether its direct path has
passed an edge since it was armed, a fire pulse whose width is being measured (the stamp of its fall, and whether the
direct path passed that fall), releases whose delay runs, and a pass that auto_release follows. -/
structure Sync where
  armLow : Bool := false
  fireLow : Bool := false
  passed : Bool := false
  measuring : Option Nat := none
  fallPassed : Bool := false
  releases : List Release := []
  autoRelease : Bool := false
deriving DecidableEq, Repr

/-- A stamped change of a source in this cycle (R439): its stamp, the interpolated mark, and whether the source rose. -/
structure SrcChange where
  src : Nat
  stamp : Nat
  interp : Bool
  rising : Bool
deriving DecidableEq, Repr

/-- Crossroads: pulses of this cycle and those of later ones, one event of a source in a cycle (R413), the stamped changes of this cycle, source and channel values of the
previous cycle, the cycles of each channel's last edges, the units, the requests not yet taken, and the SYNC bus. -/
structure Evf where
  pulses : List Nat := []
  pulsesNext : List Nat := []
  changes : List SrcChange := []
  srcPrev : Nat := 0
  chPrev : Nat := 0
  rise : List (Nat × Nat) := []
  fall : List (Nat × Nat) := []
  units : List TrigUnit := List.replicate 8 {}
  requests : List Request := []
  sync : Sync := {}
deriving DecidableEq, Repr

/-- The kind of a change of the time base (R435). -/
inductive TimeKind where
  | set | add | rate
deriving DecidableEq, Repr

/-- A change of the time base (R435, R436): its priority in a cycle (0 PPS load, 1 back-channel message, 2 register),
its value, and the time elapsed since its reference instant, in units of 2^-24 ns. -/
structure TimeChange where
  kind : TimeKind
  prio : Nat
  value : Nat
  elapsed : Nat
deriving DecidableEq, Repr

/-- A stretch in which the time base runs evenly: its first cycle, the value there, the increment of a cycle, and
TIME_STATUS.epoch and .synced. -/
structure TimeLine where
  cycle : Nat
  base : Nat
  inc : Nat
  epoch : Nat
  synced : Bool
deriving DecidableEq, Repr

/-- The time base (R431): 64 bits of time base format and 8 further fraction bits, and its value in the previous cycle;
the part of a slew not yet absorbed; whether a change was applied in this cycle; changes that wait; its even stretches
since the last readout start and the recent ones, newest first (R444, R568); timers that fired in this cycle; and the upper word each port
captured. -/
structure TimeBase where
  base : Nat := 0
  prev : Nat := 0
  slew : Int := 0
  changed : Bool := false
  waiting : List TimeChange := []
  lines : List TimeLine := []
  timersFired : List Nat := []
  captured : List (Nat × Nat) := []
deriving DecidableEq, Repr

/-! ### Faults, the log and the counters (22_faults_safety_health.md) -/

/-- Event counters: those that have counted in this cycle, events of PIX and ADC sources still to be delivered (R413), the values before a clear of this cycle (R664), whether a
snapshot was taken in this cycle, and the upper halves each port captured, by port and counter. -/
structure Counters where
  counted : List Nat := []
  backlog : List (Nat × Nat) := []
  cleared : List (Nat × Nat) := []
  snapped : Bool := false
  captured : List (Nat × Nat) := []
deriving DecidableEq, Repr

/-- A scrubber (R476, R477, R651): the next line of the sweep, the line read whose corrected copy waits to be written
back, and a line that is to be read again because it was written in between. -/
structure Scrubber where
  line : Nat := 0
  back : Option Nat := none
  again : Option Nat := none
deriving DecidableEq, Repr

/-- Safety: the event log buffer, the number of its next entry, entries lost since the last packet, a loss not yet
reported (R661); the supervisor stopped by an uncorrectable error (R652); the half-period of the warning square wave
(R645); a self-test due after a readout end (R647); when an episode of R655 and a thermal condition last ended, if one
has (for the flags of frames); the words of on-chip memory with an uncorrectable error, as (memory, address); the scrubbers
by memory (R651); whether the oldest entry of the event log has reached its age (R660); and whether a mismatch has stopped the comparison until copy B is loaded (R646). -/
structure Safety where
  log : List LogEntry := []
  logNext : Nat := 0
  lostSince : Nat := 0
  lossPending : Bool := false
  supervisorDead : Bool := false
  waveLow : Bool := false
  badgerPending : Bool := false
  railEnd : Nat := 0
  thermalEnd : Nat := 0
  railSeen : Bool := false
  thermalSeen : Bool := false
  badWords : List (Nat × Nat) := []
  sweeps : List (Nat × Scrubber) := []
  logAged : Bool := false
  badgerOff : Bool := false
deriving DecidableEq, Repr

/-! ### Rings (16_rings_and_ordering.md) -/

/-- What a ring holds beyond its registers: the packets of its spool, the bytes reserved for frames (R490), packets
built per type (R496), frames dropped since the last one sent (R26), the RECONFIG mark its next frame carries (R25),
that it waits to be removed (R133), and that its next frame restores its guarantee (R562). -/
structure RingSt where
  spool : List Packet := []
  reserved : Nat := 0
  counts : List (Nat × Nat) := []
  dropsSince : Nat := 0
  recfg : Bool := false
  removing : Bool := false
  restore : Bool := false
deriving DecidableEq, Repr

/-! ### Olaok Link (17_olaok_link.md, 18_lane_loss_and_replay.md) -/

/-- A unit of the aggregate stream (R519, R520): a control unit or a packet unit with its LSN. -/
inductive LinkUnit where
  | idle
  | sync (lsn : Nat)
  | rsync (lsn : Nat)
  | packet (lsn : Nat) (p : Packet)
deriving DecidableEq, Repr

/-- A probe of a lost lane (R563): intervals left, whether it has begun, and the cycle of the report that confirmed it. -/
structure Probe where
  lane : Nat
  left : Nat := 64
  begun : Bool := false
  confirmed : Option Nat := none
deriving DecidableEq, Repr

/-- Where a rate step stands (R540). -/
inductive StepPhase where
  /-- STEP_START waits on ring 0. -/
  | starting
  /-- STEP_START is sent; the replay buffer empties. -/
  | draining
  /-- The buffer is empty; the next marker enters STEP. -/
  | drained
  /-- Intervals at the new rate; STEP_RESULT is due. -/
  | checking
  /-- Passed: the next marker returns to ACTIVE. -/
  | passed
  /-- Failed: the next marker restores the previous rate. -/
  | failed
  /-- The previous rate is restored; this many intervals without packets are left. -/
  | settling (left : Nat)
deriving DecidableEq, Repr

/-- A rate step: new and previous rate code, a downshift, its phase, and the ring 0 sequence number of STEP_START. -/
structure RateStep where
  rate : Nat
  old : Nat
  down : Bool
  phase : StepPhase
  seq : Nat
deriving DecidableEq, Repr

/-- A request for L1 or L2 under way (R543, R632): the replay buffer empties (0), PM_ACK with this ring 0 sequence
number waits for its ACK (1), the next marker is the last (2); whether the power sequencer asked. -/
structure LowRequest where
  low : Nat
  phase : Nat := 0
  seq : Nat := 0
  power : Bool := false
deriving DecidableEq, Repr

/-- A change of the lane map not yet reported by LANE_CHANGE (R566): the lanes lost and joined at its marker, the cause, the
marker's counter, the new map, and its word of capacity, shares in force and rings demoted. -/
structure LaneNotice where
  lost : Nat := 0
  joined : Nat := 0
  cause : Nat := 0
  marker : Nat := 0
  map : Nat := 0
  capacity : Nat := 0
deriving DecidableEq, Repr

/-- The link beyond its registers: the replay buffer as (LSN, packet), oldest first (R525); a replay scheduled, and the
next LSN a running one sends (R528); the start of the last replay, whether an ACK or NAK has covered a unit since,
consecutive replays, the cycles of recent ones (R527, R529, R542); Roundabout's buckets, 0 for rings 0 and 1, as (level
in units of 2^-24 / 25 byte, cycle of the last charge), the last guaranteed ring and the last ring per priority served; the interval in progress: the tail of
the unit that crossed its marker, its units from the anchor, its restripe bit; the next marker counter; lanes declared
lost as (lane, cycle, cause); probes; the notices due, oldest first; the rate step, whether further steps are barred, whether bring-up is
still stepping, the target rate, pinned; the host's L1 and L2 bits; a low request, whether it wakes, markers before
packets resume (R546); the RENEGOTIATE packet that waits for its ACK; and for RESEND the last LSN acknowledged and
whether an ACK came since DETECT (R556); messages discarded; the lane map of the interval in progress (R517), none before
the first since DISABLED; and the receiver's last symbols, newest first, as (error, K28.5) (R531). -/
structure LinkSt where
  held : List (Nat × Packet) := []
  sched : Option Nat := none
  resend : Option Nat := none
  lastReplay : Option Nat := none
  covered : Bool := false
  consec : Nat := 0
  replays : List Nat := []
  buckets : List (Nat × (Int × Nat)) := []
  lastGuaranteed : Nat := 0
  turns : List (Nat × Nat) := []
  lead : List Byte := []
  stream : List LinkUnit := []
  restripe : Bool := false
  nextMarker : Nat := 0
  losses : List (Nat × Nat × Nat) := []
  probes : List Probe := []
  notices : List LaneNotice := []
  step : Option RateStep := none
  noSteps : Bool := false
  bringing : Bool := false
  target : Nat := 0
  pinned : Bool := false
  peerLow : Nat := 0
  low : Option LowRequest := none
  waking : Bool := false
  quiet : Nat := 0
  reneg : Option Nat := none
  lastAcked : Nat := 0
  ackTaken : Bool := false
  discarded : Nat := 0
  sentMap : Option Nat := none
  symbols : List BcSymbol := []
deriving DecidableEq, Repr

/-! ### Structure image (04_structure_image.md) -/

/-- A section of the structure: type, instance and body (R105, R108). -/
structure Section where
  type : Nat
  inst : Nat
  body : List Byte
deriving DecidableEq, Repr

/-- A checked image that waits to come into force (R124, R131): its header's fields, its key, every section of the structure
that results from it (R127), and the type and instance of those that it carries itself. -/
structure Image where
  overlay : Bool
  id : Nat
  version : Nat
  base : Nat
  target : Nat
  key : List Byte
  sections : List Section
  carried : List (Nat × Nat)
deriving DecidableEq, Repr

/-- A load whose checks run (R121): overlay or full, and the boundary selector sampled at its start (R131). -/
structure Load where
  overlay : Bool
  target : Nat
  boot : Bool
deriving DecidableEq, Repr

/-- The loader: the sections in force, the public key of the full image in force (R118), the load in progress, a checked
image that waits for its boundary, the bytes staged so far, an error found in them, and the anchor of each window
(R268). -/
structure Loader where
  sections : List Section := []
  key : List Byte := []
  load : Option Load := none
  waiting : Option Image := none
  staged : Nat := 0
  anchors : List (Nat × Nat) := []
deriving DecidableEq, Repr

/-! ### Boot and NVM (05_boot_nvm_versions.md) -/

/-- Where the boot sequence stands (R149). -/
inductive BootPhase where
  /-- Held in reset: RESETB low, TESTEN high or EXTEST. -/
  | held
  /-- Reset released; step 1 is next. -/
  | released
  /-- Step 3 waits for the reference. -/
  | waitReference
  /-- Step 4 waits for SYNA to lock on the boot plan. -/
  | waitLockBoot
  /-- Step 7 waits for the flash to leave its busy state. -/
  | waitFlash
  /-- Step 7 waits for the host to push an image. -/
  | waitPush
  /-- Step 7: the loader checks a staged image. -/
  | loading
  /-- Step 9 waits for SYNA, then for SYNB. -/
  | waitLockA
  | waitLockB
  /-- The attempt failed; a retry is due (R165). -/
  | failed
  /-- Step 11 completed. -/
  | done
  /-- Minimal Mode (R166). -/
  | minimal
  /-- The OFF state (R625). -/
  | off
deriving DecidableEq, Repr

/-- A command of the flash reader (R154): its opcode, its address as (bytes, value), FCK's divider (R157), and the data bytes
read. -/
structure FlashCmd where
  opcode : Nat
  addr : Option (Nat × Nat) := none
  div : Nat := 3
  bytes : Nat
deriving DecidableEq, Repr

/-- The boot: its phase; the source and rail latched for the reset (R187), and whether it clears the attempt counter (R144);
whether step 6 completed, the push rules of
R163 apply, the watchdog counts (R151); the boot record in use as (read_cmd, addr_bytes, fck_div, primary, secondary);
whether the secondary image is being tried; the image accepted at step 7; the number of this boot (R180); the time since
the release of reset, in units of 2^-24 ns (SYS_BOOT_TIME); and what the flash reader has sent since then (R154). -/
structure Boot where
  phase : BootPhase := .released
  source : Nat := 0
  rail : Nat := 0
  clearAttempts : Bool := false
  seedsChosen : Bool := false
  watchdog : Bool := true
  record : List Nat := []
  secondary : Bool := false
  image : Option Image := none
  bootNumber : Nat := 0
  elapsed : Nat := 0
  flashSent : List FlashCmd := []
deriving DecidableEq, Repr

/-- An NVM command in progress (R173 to R183). -/
inductive NvmOp where
  | program (word : Nat) (value : Word)
  | erase (sector : Nat)
  /-- A seed store into a bank under a sequence number: the payload once it has been taken (R328), and whether a supply
  warning has refused its next program. -/
  | store (bank : Nat) (seq : Nat) (payload : Option (List Byte)) (refused : Bool)
deriving DecidableEq, Repr

/-- The NVM: its programmed words by word index (a word that is not listed is erased, R172), the words with an
uncorrectable error, the command in progress; and the words of a boot log record that the supervisor still has to program,
with the sector it erases after them (R180). -/
structure Nvm where
  words : List (Nat × Word) := []
  bad : List Nat := []
  running : Option NvmOp := none
  recording : List (Nat × Word) := []
  eraseNext : Option Nat := none
deriving DecidableEq, Repr

/-! ### Control ports (06_control_ports.md) -/

/-- A target port: commands completed, last cause (R203), the bytes of its last response (R199, R206), and whether its last
frame is a read that has completed and may still be cut short (R202, R208). -/
structure PortSt where
  count : Nat := 0
  cause : Nat := 0
  response : List Byte := []
  reading : Bool := false
deriving DecidableEq, Repr

/-- A command in an inbound queue (R209): tag, header and data words. -/
structure QueuedCmd where
  tag : Nat
  header : Nat
  data : List Nat
deriving DecidableEq, Repr

/-- A command as decoded from its frame (R188, R196): its port, a cause found in the frame itself, its header once received, its
data words, the bytes that the frame held, and for a queued command its tag and queue; a read that its port's bound has passed by
(R201, R207), a read cut short after it was taken into service (R202, R208), and the one-word write of a single register's row,
which answers no frame. -/
structure PortCmd where
  port : Port
  err : Nat := 0
  header : Option Nat := none
  data : List Nat := []
  bytes : Nat := 0
  tag : Nat := 0
  queue : Nat := 0
  late : Bool := false
  cut : Bool := false
  single : Bool := false
deriving DecidableEq, Repr

/-- The control ports: SPI and I2C, the inbound queues' commands, of the commands that reached the serializer in this cycle
those that wait for a port of higher priority (R190), the ports whose command has been taken into service, and the ranges of the
writes among them (R191), the words written to domains whose clock stands, held in SYS (R628), by priority the
queue that last had its turn (R211), the rest of an IRQB release (R225), the ring 0 sequence number of the response that a software reset waits
for (R214), and by queue the commands that are served under its old descriptor (R508). -/
structure Ports where
  spi : PortSt := {}
  i2c : PortSt := {}
  queues : List (Nat × List QueuedCmd) := []
  held : List PortCmd := []
  taken : List Port := []
  writes : List (Port × Nat × Nat) := []
  waiting : List (Port × Nat × Word) := []
  turns : List (Nat × Nat) := []
  irqRelease : Nat := 0
  resetAsked : Option Nat := none
  underOld : List (Nat × Nat) := []
deriving DecidableEq, Repr

/-! ### Power states (21_power_states.md) -/

/-- The power sequencer: link_l2 of the last command (R632), the state that the step in progress or waiting leads to
(R630) and the stamp at which it began, and the source of a wake that came during a step to SLEEP (R634). -/
structure Power where
  linkL2 : Bool := false
  step : Option Nat := none
  stepStart : Nat := 0
  wake : Option Nat := none
deriving DecidableEq, Repr

/-! ### Pixel array and shutter (07_pixel_and_shutter.md) -/

/-- A device frame: the settings its sampling instant fixed (R231, R250), and what became of it. `x` are the exposures
in force before sub-pulses, `eff` the effective ones (R238); pulses, width and spacing are N', W and Q; `ratios` and
`excluded` are the merge's (R341, R344); stamps are in time base format. -/
structure Frame where
  number : Nat := 0
  mode : Nat := 0
  exps : Nat := 1
  rowPix : Nat := 0
  period : Nat := 0
  minPix : Nat := 0
  x : List Nat := []
  eff : List Nat := []
  lags : List Nat := []
  pulseExp : Nat := 0
  pulses : Nat := 0
  width : Nat := 0
  spacing : Nat := 0
  gain : Nat := 0
  trigMode : Bool := false
  limit : Bool := false
  clamped : Bool := false
  triggered : Bool := false
  forced : Bool := false
  first : Bool := false
  ratios : List Nat := []
  excluded : List Nat := []
  stamp : Nat := 0
  epoch : Nat := 0
  synced : Bool := false
  brownout : Bool := false
  thermal : Bool := false
  checkerLost : Bool := false
  marks : Nat := 0
  marked : List (Nat × Nat) := []
deriving DecidableEq, Repr

/-- The timing generator: the full device frame number (R16), whether run is taken up (R706), the next frame as sampled,
the frame whose readout runs or ran last, the slots elapsed since its readout start and since its readout end (past the
flush and the guard where the readout was cut), the phase of a global frame (0 none, 1 integrating, 2 after T1, 3 transferred), an accepted trigger whose readout has not started,
governor results by the frame they govern and the first frame whose results count (R253, R254), the exposures written
since gov_mode last left 0 (R256), whether SHT_EXP0 was written in an earlier cycle since the last sampling
instant, and whether in this one, the sum and count of
metered row means (R251), marks for the next frame (R416), sub-pulses counted per row of the
frame that is read and of the next one (R239), and rail conditions seen in the slot that runs (R654). -/
structure Shutter where
  frameNo : Nat := 0
  running : Bool := false
  sampled : Bool := false
  next : Option Frame := none
  cur : Option Frame := none
  reading : Bool := false
  slot : Nat := 0
  after : Nat := 0
  phase : Nat := 0
  accepted : Bool := false
  results : List (Nat × Nat) := []
  govFrom : Nat := 0
  written : Nat := 0
  hostExp : Bool := false
  hostNew : Bool := false
  meterSum : Nat := 0
  meterCount : Nat := 0
  nextMarks : Nat := 0
  subPulses : List (Nat × Nat) := []
  subNext : List (Nat × Nat) := []
  slotMarked : Bool := false
deriving DecidableEq, Repr

/-! ### Column readout and calibration (09_column_readout.md, 10_live_calibration.md) -/

/-- A slice: its calibration state (R304), the errors of its last counted steps, newest first (R319), whether its last
change of a trim went beyond a limit and which (R315), whether an offset correction has come into force since the seed
load (R318), and whether it failed the last test set (R290). -/
structure Slice where
  off : Int := 0
  gain : Int := 0
  c1 : Int := 0
  c2 : Int := 0
  k : Nat := 0
  errs : List Int := []
  offHit : Int := 0
  gainHit : Int := 0
  settled : Bool := false
  failed : Bool := false
deriving DecidableEq, Repr

/-- The changes of a calibration step, which wait for the end of the next converting slot (R313): the slice, the error,
the changes of off, gain, c1, c2 and W1 to W14, whether the step was an offset or a gain step, and whether changes apply
(R312). -/
structure Change where
  slice : Nat
  err : Int
  off : Int := 0
  gain : Int := 0
  c1 : Int := 0
  c2 : Int := 0
  weights : List Int := []
  offset : Bool := false
  gains : Bool := false
  applies : Bool := true
deriving DecidableEq, Repr

/-- A bank: bank weights in sixteenths of an LSB, slices, the first retired slice, all retired slices in the order of
their retirement, dead local columns, and the step that waits. -/
structure Bank where
  weights : List Nat := List.replicate 14 0
  slices : List Slice := List.replicate 225 {}
  first : Option Nat := none
  retired : List Nat := []
  dead : List Nat := []
  pend : Option Change := none
deriving DecidableEq, Repr

/-- A retirement decided and not yet in effect (R293): bank, slice, cause. -/
structure Retirement where
  bank : Nat
  slice : Nat
  cause : Nat
deriving DecidableEq, Repr

/-- What a test set has found of a slice (R290): the or and the and of its decisions, and a code too far off. -/
structure TestSeen where
  ors : Nat
  ands : Nat
  bad : Bool
deriving DecidableEq, Repr

/-- The readout: banks, retirements decided, the level of the test set in progress with its findings by 225 b + s,
whether an episode has spoilt the set, banks with a retirement since the previous readout end (R298), the last row mean
and its stamp per bank in this frame (R441), and a snapshot that waits for its slot boundary (R314). -/
structure Readout where
  banks : List Bank := List.replicate 24 {}
  pending : List Retirement := []
  testLevel : Nat := 0
  testSeen : List (Nat × TestSeen) := []
  testDirty : Bool := false
  recent : List Nat := []
  means : List (Nat × (Nat × Nat)) := []
  snapWaits : Bool := false
deriving DecidableEq, Repr

/-! ### Pixel pipeline and windows (11_pixel_pipeline.md, 08_windows_and_binning.md) -/

/-- The pipeline: sums and counts of the black level rows by 16 b + 4 e + q (R331), the S1 codes of the row in hand
(R330) and whether their slot was marked, the rows of this frame after defect correction by 4 row + e, pixels corrected, the curves in force as eight
(x, y) knees each (R348). A code is absent where no slice converted the column. `subst` holds the first and the last row of this
frame in which a column was substituted, by 8 column + 2 e, plus 1 for the rows of the binned band (R275). -/
structure Pipe where
  sums : List (Nat × (Int × Nat)) := []
  s1 : List (Option Int) := []
  s1Marked : Bool := false
  rows : List (Nat × List Int) := []
  subst : List (Nat × (Nat × Nat)) := []
  defects : Nat := 0
  curves : List (List (Nat × Nat)) := List.replicate 4
    [(1024, 1024), (2048, 1408), (4096, 1792), (8192, 2176), (16384, 2560), (32768, 2944), (65536, 3328), (131072, 3712)]
deriving DecidableEq, Repr

/-- A window's part in the frame that is read out: the next output row, whether its ring sends the frame, rows and bytes
sent, rows discarded, the flags its ring gave the frame (R25, R26), whether rows were cut (R40), whether its ring was demoted without
room for the rest (R560), the bytes still reserved, whether its tap takes it, and word 19 and stamp of its frame end. -/
structure WinFrame where
  number : Nat
  next : Nat := 0
  sends : Bool := false
  sent : Nat := 0
  bytes : Nat := 0
  discarded : Nat := 0
  recfg : Bool := false
  drops : Nat := 0
  degraded : Bool := false
  cut : Bool := false
  tight : Bool := false
  reserved : Nat := 0
  takesTap : Bool := false
  endWord : Nat := 0
  endStamp : Nat := 0
  closed : Bool := false
deriving DecidableEq, Repr

/-! ### Arcade (15_arcade_frame_store.md) -/

/-- The frame that a writer stores: its slot, number, stamp, epoch, synced bit, rows and bytes stored, the abandoned
count it carries, whether its last row is stored, and the flags and marks it ended with once its readout has ended. -/
structure Storing where
  slot : Nat
  number : Nat
  stamp : Nat
  epoch : Nat
  synced : Bool
  rows : Nat := 0
  bytes : Nat := 0
  before : Nat := 0
  whole : Bool := false
  flags : Option (Nat × Nat) := none
deriving DecidableEq, Repr

/-- The replayed frame in progress (R470, R473): its slot, the next row to build, the stored bytes not yet read, the spool
bytes still reserved for it, whether it carries RECONFIG, rows and bytes sent, rows discarded, whether a demotion left no
room for the rest and whether rows were cut (R560), and the errors that its reads find, by word address with their bits
(R478). -/
structure Sending where
  slot : Nat
  row : Nat := 0
  left : Nat := 0
  reserved : Nat := 0
  recfg : Bool := false
  sent : Nat := 0
  bytes : Nat := 0
  discarded : Nat := 0
  tight : Bool := false
  cut : Bool := false
  upsets : List (Nat × Nat) := []
deriving DecidableEq, Repr

/-- Rows that wait in a writer's intake buffer (R458): the frame, where its bytes go, and the bytes. -/
structure Intake where
  frame : Nat
  addr : Nat
  bytes : List Byte
deriving DecidableEq, Repr

/-- A region beyond its registers: frames stored since recording began, the frame being stored, frames abandoned since
the last one stored, whether the trigger frame is still the next sampled one, frames of POST still to come, the slots a
running pass has still to send, its frame in progress, whether op 4 ends it after that frame, and by slot the CFG_ACTIVE_ID
in force when its frame was recorded. -/
structure Region where
  stored : Nat := 0
  storing : Option Storing := none
  abandoned : Nat := 0
  trigNext : Bool := false
  postLeft : Nat := 0
  pass : Option (List Nat) := none
  sending : Option Sending := none
  ending : Bool := false
  ids : List (Nat × Nat) := []
deriving DecidableEq, Repr

/-- The Arcade: regions, words found with an uncorrectable error by address, a host fetch that runs, the cycle's freezes by
region (R468), the intake buffers by writer (R458), the host read and the staging bytes that wait for a transfer slot, the
elastic requester served last (R456), the place in the round in MEM cycles times the divider of MEM, and the scrubber. -/
structure Arcade where
  regions : List (Nat × Region) := []
  badWords : List Nat := []
  fetching : Bool := false
  frozenNow : List Nat := []
  intake : List (Nat × List Intake) := []
  hostWaits : Bool := false
  stageWaits : Nat := 0
  turn : Nat := 0
  round : Nat := 0
  scrub : Scrubber := {}
deriving DecidableEq, Repr

/-! ### Near-pixel compute (12_compute_architecture.md, 13_compute_programs.md) -/

/-- An open accumulation group (R366, R370) by physical tile, 64 array + tile: the 32 by 32 sums in row order, sat, and
the first NPC cycle in which a post-operation may start on it (R367). -/
structure Group where
  tile : Nat
  sums : List Int
  sat : Bool := false
  postFrom : Nat := 0
deriving DecidableEq, Repr

/-- An active loop (R393): first and last word of its body, remaining count. -/
structure Loop where
  first : Nat
  last : Nat
  count : Nat
deriving DecidableEq, Repr

/-- Where a run stands (R362, R409). -/
inductive RunPhase where
  /-- Some tap is not complete. -/
  | waiting
  /-- Every tap is complete; it has not started. -/
  | ready
  | running
  | halted
deriving DecidableEq, Repr

/-- A run of a program for a device frame (R362 to R365, R381): the program's NPC_PROG body; the taps complete; the tap
records whose frame count is odd (R360); its deadline in SYS cycles and its flags, once the readout has ended; the
parameters (R364); whether it is treated as disabled (R642); the programmer's model of R381; the activation table
(R375); the groups; the NPC cycles of R392, and whether a wait, a halt or contention may have added to them; the cause of
the exception that halted it, whether that was a trap; the flag it waits on, and whether a task released it (R400). -/
structure Run where
  prog : Nat
  frame : Nat
  body : List Byte
  phase : RunPhase := .waiting
  taps : List Nat := []
  odd : List Nat := []
  deadline : Option Nat := none
  flags : Option Nat := none
  params : Option (List Nat) := none
  gated : Bool := false
  satTrap : Bool := false
  pc : Nat := 0
  x : List Nat := List.replicate 16 0
  loops : List Loop := []
  mode : Nat := 0
  pendingMode : Option Nat := none
  payload : List Byte := []
  sat : Bool := false
  table : List Int := (List.range 256).map fun i => Int.ofNat i - 128
  groups : List Group := []
  issue : Nat := 0
  busyFrom : List Nat := [0, 0, 0, 0]
  postFrom : Nat := 0
  arrayFrom : Nat := 0
  delayed : Bool := false
  cause : Nat := 0
  trapped : Bool := false
  waits : Option Nat := none
  released : Bool := false
deriving DecidableEq, Repr

/-- Near-pixel compute: runs not ended, oldest first, and what an overlay writes, which waits for the runs of frames before
its boundary (R134), as (first frame after it, address, bytes): NPC_DATA, and no bytes for NPC_PROG, whose code no address of
tensor memory holds. -/
structure Npc where
  runs : List Run := []
  loads : List (Nat × Nat × List Byte) := []
deriving DecidableEq, Repr

/-! ### Housekeeping converter (19_housekeeping_converter.md) -/

/-- A conversion in progress (R568): its channel, whether it is an open-wire check (R578), whether it is deferred. -/
structure HkConv where
  ch : Nat
  check : Bool := false
  deferred : Bool := false
deriving DecidableEq, Repr

/-- The changes of a core's calibration step, which wait for the end of its next conversion or step (R588). -/
structure HkChange where
  off : Int
  gain : Int
  weights : List Int
deriving DecidableEq, Repr

/-- A housekeeping core: powered up; modes 2 and 3 running; a conversion to start, and one more request (R573, R574);
the next conversion carries deferred; the conversion in progress; the SYS cycle of the last request; a calibration step
due, and the decisions of a forced one that waits for the conversion in progress (R589); and its calibration state, whose
weights at reset the spec does not give (DESIGN CHOICE, notes/assumptions/27.md). -/
structure HkCore where
  awake : Bool := false
  running : Bool := false
  want : Bool := false
  pending : Bool := false
  late : Bool := false
  conv : Option HkConv := none
  lastReq : Option Nat := none
  calDue : Bool := false
  forced : Option Nat := none
  weights : List Nat := [32768, 16384, 8192, 4096, 2048, 1024, 512, 256, 128, 64, 32, 16, 8, 4]
  off : Int := 0
  gain : Int := 0
  k : Nat := 0
  errs : List Int := []
  change : Option HkChange := none
deriving DecidableEq, Repr

/-- The housekeeping converter: both cores; interleaving in force and the core whose turn it is (R577); the previous
sample of each window as (result, stamp) (R582); conversions of each AIN since its last check, and the class and number of
its last equal check results (R578, R579); the result buffer as (word 0, stamp), the number of its next entry, entries
lost since the last packet, whether a run of losses stands, whether the oldest entry has reached its age (R584 to R586); and the last ended episode on VAD as (detection,
end). -/
structure Hk where
  a : HkCore := {}
  b : HkCore := {}
  inter : Bool := false
  turn : Nat := 0
  prev : List (Nat × (Nat × Nat)) := []
  since : List (Nat × Nat) := []
  checks : List (Nat × (Bool × Nat)) := []
  buf : List (Nat × Nat) := []
  next : Nat := 0
  lost : Nat := 0
  losing : Bool := false
  aged : Bool := false
  vadLast : Option (Nat × Nat) := none
deriving DecidableEq, Repr

/-! ### Pin engines (20_pin_engines.md) -/

/-- A pin engine beyond its registers: V0, V1, SR and its count; the bits a stalled shift has taken and its outgoing bits
so far (R604, R608); executions left of a repetition (R600); dwell steps left, and whether an injected instruction takes them; the latched instruction and whether it was
injected (R597, R616); the stall (0 none, 1 AWAIT, 2 LOAD, 3 STORE, 4 XCHG, 5 SHIFT); an edge seen since an AWAIT was
latched; signal latch, flags (f in bit f), the last word loaded (R607); the FIFOs, oldest first; a pending injection; the last pc
write with its cycle (R617); and that its pins are in reset state since R622. -/
structure PioEng where
  v0 : Nat := 0
  v1 : Nat := 0
  sr : Nat := 0
  count : Nat := 0
  taken : Nat := 0
  out : Nat := 0
  rep : Nat := 0
  dwell : Nat := 0
  dwellOwn : Bool := false
  latched : Option (Nat × Bool) := none
  stall : Nat := 0
  edge : Bool := false
  signal : Bool := false
  flags : Nat := 0
  last : Nat := 0
  tx : List Nat := []
  rx : List Nat := []
  inject : Option Nat := none
  pcWrite : Option (Nat × Nat) := none
  parked : Bool := false
deriving DecidableEq, Repr

/-- The pin engines, and the level and direction that they give each pin. -/
structure Pio where
  engs : List (Nat × PioEng) := []
  lev : Nat := 0
  dir : Nat := 0
deriving DecidableEq, Repr

/-! ### The whole device -/

/-- The device. `regs` lists the registers whose value differs from their reset value, by byte address; `live` the
values in force of registers with RWB fields; `heldOld` the shadows as they were before this cycle's writes (R13);
`freshBits` the W1C bits that hardware set in this cycle (R15). -/
structure State where
  cycle : Nat := 0
  fresh : Nat := 0
  regs : List (Nat × Word) := []
  live : List (Nat × Word) := []
  heldOld : List (Nat × Word) := []
  freshBits : List (Nat × Nat) := []
  supply : Supply := {}
  clk : Clocks := {}
  cfg : Loader := {}
  boot : Boot := {}
  nvm : Nvm := {}
  ports : Ports := {}
  pwr : Power := {}
  evf : Evf := {}
  time : TimeBase := {}
  cnt : Counters := {}
  safe : Safety := {}
  rings : List (Nat × RingSt) := []
  link : LinkSt := {}
  sht : Shutter := {}
  rdo : Readout := {}
  pipe : Pipe := {}
  wins : List (Nat × WinFrame) := []
  arc : Arcade := {}
  npc : Npc := {}
  hk : Hk := {}
  pio : Pio := {}
  arcadeMem : List Host.Cell := []
  tensorMem : List Host.Cell := []
  pending : List Instr := []
deriving DecidableEq, Repr

/-- Why the machine stops. The spec lets the device run on through everything it describes (R643), so no command
raises a fault. -/
inductive Fault where
  /-- Raised by no command; safe. -/
  | unreachable
deriving DecidableEq, Repr

/-- Why a command has no meaning in the model. -/
inductive Refusal where
  /-- The command's meaning is not written yet; safe. -/
  | notModelled (mnemonic : String)
  /-- A private test instruction takes effect while TESTEN is high: the spec leaves what follows outside its
  description (02, At the edges, TESTEN is high). Raised by the test access port; safe. -/
  | privateInstruction (opcode : Nat)
deriving DecidableEq, Repr

/-- The weights, in words of two, of a bank whose weights halve from stage to stage. -/
def halvingWeights : List Nat := [0x40008000, 0x10002000, 0x4000800, 0x1000200, 0x400080, 0x100020, 0x40008]

/-- NVM sectors 0 and 1 as they are programmed before delivery (R327, R703): serial number 0, grade 0, the copy of SYS_ID,
and factory seeds of offset and gain 0 with weights that halve from stage to stage (DESIGN CHOICE,
notes/assumptions/25.md: the spec gives the layout, not the contents of one part). -/
def factoryWords : List (Nat × Word) :=
  [(0, 0#32), (1, 0#32), (2, 0#32), (3, 0x50244D01#32), (4, 0x3BBAE027#32), (1024, 24#32)] ++
  ((List.range 24).flatMap fun b =>
    ((halvingWeights ++ [0]).zip (List.range 8)).map fun (w : Nat × Nat) => (1025 + 8 * b + w.2, BitVec.ofNat 32 w.1)) ++
  [(1217, 0x2D1940A5#32)]

/-- The factory-programmed seed bank, of sequence number 1 (R185), in the layouts of R181 and R325: bank A, with the same
weights and every trim 0 (DESIGN CHOICE, notes/assumptions/25.md). -/
def factoryBank : List (Nat × Word) :=
  [(2048, 1#32), (2049, 0x000100B1#32), (2050, 23140#32), (2051, 0x3CC21E75#32), (2052, 0x00E10018#32)] ++
  ((List.range 24).flatMap fun b =>
    ((halvingWeights ++ 0xFF00 :: List.replicate 8 0).zip (List.range 16)).map fun (w : Nat × Nat) =>
      (2053 + 16 * b + w.2, BitVec.ofNat 32 w.1)) ++
  (List.range 5400).map fun (i : Nat) => (2437 + i, 0#32)

/-- The device right after a reset, as the spec gives it, in its first boot; what the spec leaves open is named in the log. -/
def State.reset : State := { nvm := { words := factoryWords ++ factoryBank }, boot := { bootNumber := 1 } }

end Sys2Proof.Machine
end

