-- ==== Sys2Proof/Machine/Update.lean ====
section
/-! DEFINITION. The update of one part of the state. -/

namespace Sys2Proof.Machine

/-- The state with `cycle` replaced. -/
def State.withCycle (s : State) (x : Nat) : State := { s with cycle := x }
/-- The state with `fresh` replaced. -/
def State.withFresh (s : State) (x : Nat) : State := { s with fresh := x }
/-- The state with `regs` replaced. -/
def State.withRegs (s : State) (x : List (Nat × Word)) : State := { s with regs := x }
/-- The state with `live` replaced. -/
def State.withLive (s : State) (x : List (Nat × Word)) : State := { s with live := x }
/-- The state with `heldOld` replaced. -/
def State.withHeldOld (s : State) (x : List (Nat × Word)) : State := { s with heldOld := x }
/-- The state with `freshBits` replaced. -/
def State.withFreshBits (s : State) (x : List (Nat × Nat)) : State := { s with freshBits := x }
/-- The state with `supply` replaced. -/
def State.withSupply (s : State) (x : Supply) : State := { s with supply := x }
/-- The state with `clk` replaced. -/
def State.withClk (s : State) (x : Clocks) : State := { s with clk := x }
/-- The state with `cfg` replaced. -/
def State.withCfg (s : State) (x : Loader) : State := { s with cfg := x }
/-- The state with `boot` replaced. -/
def State.withBoot (s : State) (x : Boot) : State := { s with boot := x }
/-- The state with `nvm` replaced. -/
def State.withNvm (s : State) (x : Nvm) : State := { s with nvm := x }
/-- The state with `ports` replaced. -/
def State.withPorts (s : State) (x : Ports) : State := { s with ports := x }
/-- The state with `pwr` replaced. -/
def State.withPwr (s : State) (x : Power) : State := { s with pwr := x }
/-- The state with `evf` replaced. -/
def State.withEvf (s : State) (x : Evf) : State := { s with evf := x }
/-- The state with `time` replaced. -/
def State.withTime (s : State) (x : TimeBase) : State := { s with time := x }
/-- The state with `cnt` replaced. -/
def State.withCnt (s : State) (x : Counters) : State := { s with cnt := x }
/-- The state with `safe` replaced. -/
def State.withSafe (s : State) (x : Safety) : State := { s with safe := x }
/-- The state with `rings` replaced. -/
def State.withRings (s : State) (x : List (Nat × RingSt)) : State := { s with rings := x }
/-- The state with `link` replaced. -/
def State.withLink (s : State) (x : LinkSt) : State := { s with link := x }
/-- The state with `sht` replaced. -/
def State.withSht (s : State) (x : Shutter) : State := { s with sht := x }
/-- The state with `rdo` replaced. -/
def State.withRdo (s : State) (x : Readout) : State := { s with rdo := x }
/-- The state with `pipe` replaced. -/
def State.withPipe (s : State) (x : Pipe) : State := { s with pipe := x }
/-- The state with `wins` replaced. -/
def State.withWins (s : State) (x : List (Nat × WinFrame)) : State := { s with wins := x }
/-- The state with `arc` replaced. -/
def State.withArc (s : State) (x : Arcade) : State := { s with arc := x }
/-- The state with `npc` replaced. -/
def State.withNpc (s : State) (x : Npc) : State := { s with npc := x }
/-- The state with `hk` replaced. -/
def State.withHk (s : State) (x : Hk) : State := { s with hk := x }
/-- The state with `pio` replaced. -/
def State.withPio (s : State) (x : Pio) : State := { s with pio := x }
/-- The state with `arcadeMem` replaced. -/
def State.withArcadeMem (s : State) (x : List Host.Cell) : State := { s with arcadeMem := x }
/-- The state with `tensorMem` replaced. -/
def State.withTensorMem (s : State) (x : List Host.Cell) : State := { s with tensorMem := x }

end Sys2Proof.Machine
end

