-- ==== Sys2Proof/Machine/Ops.lean ====
section
/-! DEFINITION. The shared operations: the register file and its access codes (R5 to R15), interrupts (R222 to R225),
free values, and the memories. -/

namespace Sys2Proof.Machine

/-! ### The register file -/

/-- A register as the host would read its stored value: the listed word, or its reset value (R11). -/
def State.reg (s : State) (a : Nat) : Word := Sparse.get (regReset a) s.regs a

/-- The register `a` set to `v`, whatever its access code. -/
def State.setReg (s : State) (a : Nat) (v : Word) : State :=
  s.withRegs (Sparse.put (regReset a) s.regs a v)

/-- A field's stored value. -/
def State.get (s : State) (f : Fld) : Nat := bits (s.reg f.addr).toNat f.lo f.w

/-- The field `f` set to `v`, modulo its width, the rest of its register kept. -/
def State.put (s : State) (f : Fld) (v : Nat) : State :=
  s.setReg f.addr (BitVec.ofNat 32 (setBits (s.reg f.addr).toNat f.lo f.w v))

/-- A one-bit field as a truth value. -/
def State.on (s : State) (f : Fld) : Bool := s.get f == 1

/-- A count that saturates, advanced by `n`. -/
def State.bump (s : State) (f : Fld) (n : Nat := 1) : State := s.put f (satAdd f.w (s.get f) n)

/-- A count that wraps, advanced by `n`. -/
def State.bumpWrap (s : State) (f : Fld) (n : Nat := 1) : State := s.put f (s.get f + n)

/-- The value in force of a register with RWB fields (R6). -/
def State.liveReg (s : State) (a : Nat) : Word := Sparse.get (regReset a) s.live a

/-- The value in force of an RWB field. -/
def State.lget (s : State) (f : Fld) : Nat := bits (s.liveReg f.addr).toNat f.lo f.w

/-- The one-bit RWB field is in force at 1. -/
def State.lon (s : State) (f : Fld) : Bool := s.lget f == 1

/-- The register `a` in force at `v`. -/
def State.setLive (s : State) (a : Nat) (v : Word) : State :=
  s.withLive (Sparse.put (regReset a) s.live a v)

/-- A field set in the shadow and in force together, as a structure change does. -/
def State.putBoth (s : State) (f : Fld) (v : Nat) : State :=
  (s.put f v).setLive f.addr (BitVec.ofNat 32 (setBits (s.liveReg f.addr).toNat f.lo f.w v))

/-- The shadow a boundary brings into force: a write of this same cycle waits for the next boundary (R13, R14). -/
def State.shadowAt (s : State) (a : Nat) : Word := (Sparse.find s.heldOld a).getD (s.reg a)

/-- One register's RWB fields come into force (R6): the masked bits of the shadow replace those in force. -/
def State.force (s : State) (a mask : Nat) : State :=
  s.setLive a (BitVec.ofNat 32
    (andNot (s.liveReg a).toNat mask + land (s.shadowAt a).toNat mask))

/-- The addresses an indexed row covers. -/
def dimAddrs : List (Nat × Nat) → List Nat
  | [] => [0]
  | (st, n) :: ds => (List.range n).flatMap fun i => (dimAddrs ds).map (· + st * i)

/-- The rows whose RWB fields wait for the boundary `b`, except those of the listed blocks. -/
def boundaryRows (b : Boundary) : List RegRow :=
  (regBlocks.flatMap (·.2)).filter fun r => r.boundary = b ∧ r.rwb ≠ 0

/-- Every RWB field that waits for the boundary `b` comes into force, for the registers that `p` selects. -/
def State.boundary (s : State) (b : Boundary) (p : Nat → Bool) : State :=
  (boundaryRows b).foldl
    (fun s r => (dimAddrs r.dims).foldl (fun s o => if p (r.base + o) then s.force (r.base + o) r.rwb else s) s) s

/-- A shadow that waits for a boundary is discarded: the register reads as it is in force (R142). -/
def State.dropShadow (s : State) (a : Nat) : State :=
  match regRow a with
  | none => s
  | some r =>
    (s.setReg a (BitVec.ofNat 32 (andNot (s.reg a).toNat r.rwb + land (s.liveReg a).toNat r.rwb))).withHeldOld
      (Sparse.erase s.heldOld a)

/-- Hardware sets W1C bits: a write of 1 in the same SYS cycle does not clear them (R15). -/
def State.hwSet (s : State) (f : Fld) (v : Nat := 1) : State :=
  let m := lor (Sparse.get 0 s.freshBits f.addr) ((v % 2 ^ f.w) * 2 ^ f.lo)
  ((s.put f (lor (s.get f) v)).withFreshBits (Sparse.insert s.freshBits f.addr m))

/-- The value after a host write of `v` to a register with row `r` (R5, R9): the RW and RWB fields store it, the W1C
fields clear where it is 1 unless hardware set them in this cycle (R15), every other bit keeps. -/
def RegRow.written (r : RegRow) (old v fresh : Nat) : Nat :=
  let kept := andNot old r.rw
  let stored := land v r.rw
  let clear := andNot (land v r.w1c) fresh
  andNot (kept + stored) clear

/-- A plain host write to a register field that has no row of its own (R5): the stored bits change by access code;
a shadow's old value is kept for a boundary of the same cycle (R13). -/
def State.plainWrite (s : State) (a : Nat) (v : Word) : State :=
  match regRow a with
  | none => s
  | some r =>
    let old := s.reg a
    let s1 := s.setReg a (BitVec.ofNat 32 (r.written old.toNat v.toNat (Sparse.get 0 s.freshBits a)))
    if r.rwb = 0 ∨ (Sparse.find s.heldOld a).isSome then s1
    else s1.withHeldOld (Sparse.insert s1.heldOld a old)

/-! ### Free values and memories -/

/-- A value the spec does not state: the next free value, and the state that has used it. -/
def State.free (s : State) : Nat × State := (Config.freeValue s.fresh, (s.withFresh (s.fresh + 1)))

/-- A byte of a sparse memory. -/
def cellGet (m : List Host.Cell) (a : Nat) : Byte := Sparse.get Config.memFill m a

/-- A sparse memory with one byte written. -/
def cellPut (m : List Host.Cell) (a : Nat) (v : Byte) : List Host.Cell := Sparse.put Config.memFill m a v

/-- `n` bytes from address `a`. -/
def cellsRead (m : List Host.Cell) (a n : Nat) : List Byte := (List.range n).map fun i => cellGet m (a + i)

/-- The entries of consecutive bytes from address `a`, without those equal to the fill. -/
def cellsOf : Nat → List Byte → List Host.Cell
  | _, [] => []
  | a, b :: bs => if b = Config.memFill then cellsOf (a + 1) bs else (a, b) :: cellsOf (a + 1) bs

/-- Consecutive bytes written from address `a`. -/
def cellsWrite (m : List Host.Cell) (a : Nat) (bs : List Byte) : List Host.Cell :=
  (m.filter fun c => decide (c.1 < a)) ++ cellsOf a bs ++ m.filter fun c => decide (a + bs.length ≤ c.1)

/-- `n` bytes from address `a`, in one pass over the list. -/
def cellsSlice : Nat → List Host.Cell → Nat → List Byte
  | 0, _, _ => []
  | n + 1, m, a =>
    match m.dropWhile fun c => decide (c.1 < a) with
    | [] => Config.memFill :: cellsSlice n [] (a + 1)
    | c :: r => if c.1 = a then c.2 :: cellsSlice n r (a + 1) else Config.memFill :: cellsSlice n (c :: r) (a + 1)

/-- A memory with the addresses in `[a, a + n)` back at the fill. -/
def cellsClear (m : List Host.Cell) (a n : Nat) : List Host.Cell :=
  m.filter fun c => decide (c.1 < a) || decide (a + n ≤ c.1)

/-! ### Interrupts -/

/-- The status and enable registers of summary bits 0 to 17 (R222). -/
def irqPairs : List (Nat × Nat) :=
  [(aSYS_SRC_IRQ_STAT, aSYS_SRC_IRQ_EN), (aCLK_IRQ_STAT, aCLK_IRQ_EN), (aPWR_IRQ_STAT, aPWR_IRQ_EN),
   (aCFG_IRQ_STAT, aCFG_IRQ_EN), (aSHT_IRQ_STAT, aSHT_IRQ_EN), (aRDO_IRQ_STAT, aRDO_IRQ_EN),
   (aCAL_IRQ_STAT, aCAL_IRQ_EN), (aPIPE_IRQ_STAT, aPIPE_IRQ_EN), (aNPC_IRQ_STAT, aNPC_IRQ_EN),
   (aEVF_IRQ_STAT, aEVF_IRQ_EN), (aARC_IRQ_STAT, aARC_IRQ_EN), (aRING_IRQ_STAT, aRING_IRQ_EN),
   (aLNK_IRQ_STAT, aLNK_IRQ_EN), (aHKA_IRQ_STAT, aHKA_IRQ_EN), (aPIO_IRQ_STAT, aPIO_IRQ_EN),
   (aSAFE_IRQ_STAT, aSAFE_IRQ_EN), (aNVM_IRQ_STAT, aNVM_IRQ_EN), (aCNT_IRQ_STAT, aCNT_IRQ_EN)]

/-- Some enabled bit of a status register is 1. -/
def State.irqPair (s : State) (p : Nat × Nat) : Bool := land (s.reg p.1).toNat (s.reg p.2).toNat != 0

/-- A status register as the host reads it: CTL shows in SYS_SRC_IRQ_STAT[2], WIN in SHT_IRQ_STAT[5] (R222). -/
def State.irqStat (s : State) (a : Nat) : Nat :=
  if a = aSYS_SRC_IRQ_STAT then setBits (s.reg a).toNat 2 1 (b2n (s.irqPair (aCTL_IRQ_STAT, aCTL_IRQ_EN)))
  else if a = aSHT_IRQ_STAT then setBits (s.reg a).toNat 5 1 (b2n (s.irqPair (aWIN_IRQ_STAT, aWIN_IRQ_EN)))
  else (s.reg a).toNat

/-- SYS_IRQ_STAT (R222). -/
def State.irqSummary (s : State) : Nat :=
  ((irqPairs.zip (List.range 18)).filter fun p => land (s.irqStat p.1.1) (s.reg p.1.2).toNat != 0).foldl
    (fun a p => a + 2 ^ p.2) 0

/-- IRQB is driven low (R223), unless a W1C write has released it for its 200 cycles (R225). -/
def State.irqbLow (s : State) : Bool :=
  land s.irqSummary (s.reg aSYS_IRQ_EN).toNat != 0 && s.ports.irqRelease == 0

/-! ### Time, device state and structure -/

/-- The time base in time-base format: 48 bits of nanoseconds, 16 bits of fraction (R431). -/
def State.now (s : State) : Nat := s.time.base / 256 % 2 ^ 64

/-- Output `n` of SYNA runs: it stays low until lock and while it is disabled (R83, R87). -/
def State.synaOut (s : State) (n : Nat) : Bool := s.clk.a.locked && s.lon (CLK_SYNA_OUT_CFG_en n)

/-- A PIX cycle in units of 2^-24 ns: PIX and SYS are outputs 0 and 4 of SYNA, by their dividers (R79, R431). -/
def State.pixPeriod (s : State) : Nat :=
  s.get TIME_INC_inc * s.lget (CLK_SYNA_OUT_CFG_div 0) / s.lget (CLK_SYNA_OUT_CFG_div 4)

/-- The delay of SYNA output `n` in force, in eighths of a VCO cycle (R85). -/
def State.outDelay (s : State) (n : Nat) : Nat := bits (s.liveReg (aCLK_SYNA_OUT_DLY n)).toNat 0 11

/-- The time base value of the PIX rising edge of this SYS cycle, in units of 2^-24 ns (R96, R440): PIX stands off SYS by
the difference of their output delays, in eighths of the VCO cycle of 2 TIME_INC / d_4, modulo the PIX cycle. -/
def State.pixEdge (s : State) : Nat :=
  let off : Int := ((s.outDelay 0 : Int) - (s.outDelay 4 : Int)) * (s.get TIME_INC_inc : Int) /
    (4 * (s.lget (CLK_SYNA_OUT_CFG_div 4) : Int))
  (s.time.base + (off % (s.pixPeriod : Int)).toNat) % 2 ^ 72

/-- The pin stamp of an edge in eighth `e` of the PIX cycle (R440): T_p + (2e + 1) * 20 480, less the fixed delay. -/
def State.pinStamp (s : State) (e : Nat) : Nat :=
  (s.pixEdge + (2 * (e % 8) + 1) * 20480 * 2 ^ 8 + Config.pinSkew) / 2 ^ 8 % 2 ^ 64

/-- The stretch in which the time base runs now. -/
def State.timeLine (s : State) : TimeLine :=
  { cycle := s.cycle, base := s.time.base, inc := s.get TIME_INC_inc, epoch := s.get TIME_STATUS_epoch
    synced := s.on TIME_STATUS_synced }

/-- The even stretches of the time base, newest first, with the one of this cycle: the last one noted, where it still
predicts the value now, else a new one. -/
def State.timeLines (s : State) : List TimeLine :=
  let now := s.timeLine
  match s.time.lines with
  | [] => [now]
  | l :: ls =>
    if { now with cycle := l.cycle, base := l.base } = l ∧ (l.base + (s.cycle - l.cycle) * l.inc) % 2 ^ 72 = now.base then
      l :: ls
    else now :: l :: ls

/-- The stretch that holds the instant `t` (in `d`-th parts of a SYS cycle): the newest that had begun, else the oldest. -/
def lineAt (d : Nat) (t : Int) : List TimeLine → Option TimeLine
  | [] => none
  | [l] => some l
  | l :: m :: ls => if (d * l.cycle : Int) ≤ t then some l else lineAt d t (m :: ls)

/-- The stretches that hold the 400 SYS cycles before `c`, longer than any conversion looks back (R568). -/
def recentLines (c : Nat) : List TimeLine → List TimeLine
  | [] => []
  | [l] => [l]
  | l :: m :: ls => if l.cycle + 400 ≤ c then [l] else l :: recentLines c (m :: ls)

/-- The time base `n` cycles of SYNA output `o` before this SYS edge, as it ran then, and its stretch: the clocks stand in the ratio
of their dividers (R79, R96). -/
def State.baseBack (s : State) (n o : Nat) : Int × TimeLine :=
  let d := s.lget (CLK_SYNA_OUT_CFG_div 4)
  let t : Int := (d * s.cycle : Int) - (n * s.lget (CLK_SYNA_OUT_CFG_div o) : Int)
  let l := (lineAt d t s.timeLines).getD s.timeLine
  ((l.base : Int) + (t - (d * l.cycle : Int)) * (l.inc : Int) / (d : Int), l)

/-- Stamp, epoch and synced bit of the instant `n` PIX cycles before this PIX edge, on the time base as it ran then
(R444). -/
def State.stampBack (s : State) (n : Nat) : Nat × Nat × Bool :=
  let x := s.baseBack n 0
  let b := x.1 + ((s.pixEdge : Int) - (s.time.base : Int))
  ((b % 2 ^ 72).toNat / 2 ^ 8, x.2.epoch, x.2.synced)

/-! ### Scrubbers (R476, R477, R651) -/

/-- A write of `n` bytes at `a` cancels the write-back of a line it touches; that line is scrubbed again (R477). -/
def Scrubber.written (k : Scrubber) (a n : Nat) : Scrubber :=
  match k.back with
  | some l => if l < a + n ∧ a < l + 64 ∧ n ≠ 0 then { k with back := none, again := some l } else k
  | none => k

/-- The line that the scrubber reads in its next slot: one to be read again comes first (R477, R651). -/
def Scrubber.next (k : Scrubber) : Nat := match k.again with | some l => l | none => k.line

/-- The scrubber of a memory of `size` bytes after a slot that found `errorBits` bits in error: a write-back that nothing has
cancelled is made, and a corrected line waits to be written back. -/
def Scrubber.took (k : Scrubber) (size errorBits : Nat) : Scrubber :=
  { line := if k.again.isSome then k.line else (k.line + 64) % size
    back := if errorBits = 1 then some k.next else none }

/-- Stamp `a` lies before stamp `b`, modulo 2^64 (R434). -/
def earlier (a b : Nat) : Bool := decide (2 ^ 63 ≤ (a + 2 ^ 64 - b % 2 ^ 64) % 2 ^ 64)

/-- The commands that follow in this SYS cycle: all that still wait, since a cycle ends when the queue is empty
(notes/assumptions/1.md). What the device decides among the commands of one cycle looks here, so that the order of the
queue within a cycle decides nothing. -/
def State.restOfCycle (s : State) : List Instr := s.pending

/-- PWR_STATUS.state (R624): 0 OFF, 1 SLEEP, 2 STANDBY, 3 READY, 4 STREAM. -/
def State.power (s : State) : Nat := s.get PWR_STATUS_state

/-- The control ports answer nothing while the device is held in reset or in OFF (06, Reads during reset). -/
def State.portsDead (s : State) : Bool := s.boot.phase == .held || s.boot.phase == .off

/-- The device is in Minimal Mode. -/
def State.minimal (s : State) : Bool := s.get CFG_STATUS_structure == 3

/-- A section of the structure in force (R102). -/
def State.section? (s : State) (type inst : Nat) : Option (List Byte) :=
  (s.cfg.sections.find? fun x => x.type == type && x.inst == inst).map (·.body)

/-- Its body, empty where absent. -/
def State.body (s : State) (type inst : Nat) : List Byte := (s.section? type inst).getD []

/-- A section exists. -/
def State.has (s : State) (type inst : Nat) : Bool := (s.section? type inst).isSome

/-- The device frame number, 64 bits: the low 32 in SHT_FRAME_NUM (R16). -/
def State.frameLow (s : State) : Nat := s.get SHT_FRAME_NUM_frame

/-- A 64-bit value stored in a pair of registers. -/
def State.put64 (s : State) (lo hi : Nat) (v : Nat) : State :=
  (s.setReg lo (BitVec.ofNat 32 v)).setReg hi (BitVec.ofNat 32 (v / 2 ^ 32))

/-- A 64-bit value read from a pair of registers. -/
def State.get64 (s : State) (lo hi : Nat) : Nat := (s.reg lo).toNat + 2 ^ 32 * (s.reg hi).toNat

end Sys2Proof.Machine
end

