-- ==== Sys2Proof/Machine/Events.lean ====
section
/-! DEFINITION. Event sources, pattern channels, counters and task requests (R413 to R430, R662 to R664). -/

namespace Sys2Proof.Machine

/-! ### Event counters -/

/-- Counter `k`'s value: 48 bits in its live pair of registers. -/
def State.counter (s : State) (k : Nat) : Nat := s.get64 (aCNT_LIVE k 0) (aCNT_LIVE k 1)

/-- Counter `k` set. -/
def State.setCounter (s : State) (k v : Nat) : State := s.put64 (aCNT_LIVE k 0) (aCNT_LIVE k 1) (v % 2 ^ 48)

/-- Counter `k` counts one event, at most one in a SYS cycle (R662, R663); a wrap sets its bit in CNT_OVF. -/
def State.countOne (s : State) (k : Nat) : State :=
  if s.cnt.counted.contains k then s
  else
    let v := s.counter k + 1
    let s1 := ((s.setCounter k v).withCnt { s.cnt with counted := k :: s.cnt.counted })
    if v = 2 ^ 48 then (s1.hwSet CNT_OVF_wrapped (2 ^ k)).hwSet CNT_IRQ_STAT_wrap else s1

/-- An event of counter source `src`: every enabled counter that selects it counts, where `edgeOk` holds of its edge
selection (R662). -/
def State.countWhere (s : State) (src : Nat) (edgeOk : Nat → Bool) : State :=
  (List.range 32).foldl
    (fun s k =>
      if s.on (CNT_CFG_en k) && s.get (CNT_CFG_source k) == src && edgeOk (s.get (CNT_CFG_edge k)) then s.countOne k
      else s) s

/-- An event of a source without levels. -/
def State.count (s : State) (src : Nat) : State := s.countWhere src fun _ => true

/-- `n` events of a source in PIX or ADC, delivered one per SYS cycle without loss (R413). -/
def State.countN (s : State) (src n : Nat) : State :=
  let b := Sparse.put 0 s.cnt.backlog src (Sparse.get 0 s.cnt.backlog src + n)
  s.withCnt { s.cnt with backlog := b }

/-- One event of every source that has some left is delivered. -/
def State.deliver (s : State) : State :=
  s.cnt.backlog.foldl
    (fun s e =>
      let s1 := s.count e.1
      (s1.withCnt { s1.cnt with backlog := Sparse.put 0 s1.cnt.backlog e.1 (e.2 - 1) })) s

/-! ### Sources -/

/-- The level of source `src` (R413). -/
def State.level (s : State) (src : Nat) : Bool :=
  bit (s.get (EVF_SRC_LEVEL_level (src / 32))) (src % 32)

/-- The value of a source in this cycle: its level, or 1 for a pulse of this cycle. -/
def State.source (s : State) (src : Nat) : Bool := s.level src || s.evf.pulses.contains src

/-- A level source takes a value, with the stamp of the change and whether it was interpolated (R439 to R442). -/
def State.setLevel (s : State) (src : Nat) (v : Bool) (stamp : Nat) (interp : Bool := false) : State :=
  if s.level src = v then s
  else
    let old := s.get (EVF_SRC_LEVEL_level (src / 32))
    let s1 := s.put (EVF_SRC_LEVEL_level (src / 32)) (setBits old (src % 32) 1 (b2n v))
    let s2 := s1.withEvf { s1.evf with
      changes := s1.evf.changes ++ [{ src := src, stamp := stamp, interp := interp, rising := v }] }
    s2.countWhere src fun e => e == 2 || (e == 0 && v) || (e == 1 && !v)

/-- A level source changes at this cycle's arrival stamp. -/
def State.arrive (s : State) (src : Nat) (v : Bool) : State := s.setLevel src v s.now

/-- A pulse source has an event: one reaches Crossroads in a SYS cycle, further ones wait for later cycles (R413). -/
def State.pulse (s : State) (src : Nat) : State :=
  if s.evf.pulses.contains src then s.withEvf { s.evf with pulsesNext := s.evf.pulsesNext ++ [src] }
  else
    (s.withEvf { s.evf with
      pulses := s.evf.pulses ++ [src]
      changes := s.evf.changes ++ [{ src := src, stamp := s.now, interp := false, rising := true }] }).count src

/-! ### Pattern channels -/

/-- The EVENTS mask of housekeeping windows, all eight without the section (R414). -/
def State.hkMask (s : State) : Nat := match s.section? 6 0 with | some b => leAt b 4 1 | none => 0xFF

/-- The EVENTS mask of channel 31, the software events without the section (R414). -/
def State.ch31Mask (s : State) : Nat :=
  match s.section? 6 0 with | some b => leAt b 8 12 | none => 0xFF * 2 ^ 38

/-- The sources of channel `c` (R414). -/
def State.channelSources (s : State) (c : Nat) : List Nat :=
  if c < 30 then [c]
  else if c = 30 then (setBitsOf 8 s.hkMask).map (· + 30)
  else (setBitsOf 96 s.ch31Mask)

/-- The value of channel `c` in this cycle. -/
def State.channel (s : State) (c : Nat) : Bool := (s.channelSources c).any s.source

/-- All 32 channel values. -/
def State.channels (s : State) : Nat := maskOf ((List.range 32).filter s.channel)

/-- An edge of channel `c` in this cycle, or within the last `hold` cycles (R420). -/
def State.chanEdge (s : State) (c hold : Nat) (rising : Bool) : Bool :=
  (s.channel c == rising && bit s.evf.chPrev c != rising) ||
    (match Sparse.find (if rising then s.evf.rise else s.evf.fall) c with
     | some t => decide (s.cycle ≤ t + hold)
     | none => false)

/-- The qualifier of channel `c` for unit `n`. -/
def State.qual (s : State) (n c : Nat) : Nat :=
  bits (s.reg (if c < 16 then aEVF_TU_QUAL_LO n else aEVF_TU_QUAL_HI n)).toNat (2 * (c % 16)) 2

/-- Channel `c` matches for unit `n` (R420). -/
def State.chanMatch (s : State) (n c : Nat) : Bool :=
  let hold := s.get (EVF_TU_CTRL_hold n)
  match s.qual n c with
  | 0 => s.channel c == bit (s.get (EVF_TU_PATTERN_p n)) c
  | 1 => s.chanEdge c hold true
  | 2 => s.chanEdge c hold false
  | _ => s.chanEdge c hold true || s.chanEdge c hold false

/-- The channels that unit `n` watches. -/
def State.watched (s : State) (n : Nat) : List Nat :=
  (List.range 32).filter fun c => !bit (s.get (EVF_TU_DONTCARE_d n)) c

/-- The condition of unit `n` in this cycle (R421). -/
def State.condition (s : State) (n : Nat) : Bool :=
  !(s.watched n).isEmpty && (s.watched n).all (s.chanMatch n)

/-- Trigger unit `n`. -/
def State.unit (s : State) (n : Nat) : TrigUnit := s.evf.units.getD n {}

/-- Trigger unit `n` replaced. -/
def State.setUnit (s : State) (n : Nat) (u : TrigUnit) : State :=
  s.withEvf { s.evf with units := s.evf.units.set n u }

/-! ### Task requests -/

/-- The target of a task exists (R418, R429). -/
def State.taskExists (s : State) (t : Nat) : Bool :=
  if t = 2 ∨ t = 3 then s.has 0x0A 0
  else if t = 4 ∨ t = 5 then s.has 0x0B 0
  else if 18 ≤ t ∧ t ≤ 25 then s.has 9 (t - 18)
  else if 26 ≤ t ∧ t ≤ 33 then !s.minimal
  else decide (t < 44)

/-- A request reaches a task (R426), with the time base value of this cycle; one for the next cycle takes that cycle's
value at the tick. -/
def State.request (s : State) (r : Request) : State :=
  s.withEvf { s.evf with requests := s.evf.requests ++ [{ r with made := s.now }] }

/-- The requests for a task that were made in the first cycle that holds any: a request leaves Crossroads in the cycle
after it is made (R428), so that all requests of one cycle are there when the task takes them (R427). -/
def State.due (s : State) (t : Nat) : List Request :=
  match s.evf.requests.find? fun r => r.task == t && decide (r.cycle < s.cycle) with
  | none => []
  | some r => s.evf.requests.filter fun q => q.task == t && q.cycle == r.cycle

/-- The earliest stamp of some requests (R443). -/
def earliest (rs : List Request) : Nat :=
  match rs with
  | [] => 0
  | r :: q => q.foldl (fun a x => if earlier x.stamp a then x.stamp else a) r.stamp

end Sys2Proof.Machine
end

