-- ==== Sys2Proof/Machine/RingOps.lean ====
section
/-! DEFINITION. Rings: packets, sequence numbers and the spool (R480 to R497), the event log (R659 to R661), and the
FAULTB conditions (R644, R645). -/

namespace Sys2Proof.Machine

/-! ### Rings -/

/-- Ring `n` exists: rings 0 and 1 always, the others as their descriptor says (R109). -/
def State.ringExists (s : State) (n : Nat) : Bool := decide (n < 2) || bit (s.get (RING_DESC0_flags n)) 0

/-- The spool allocation of ring `n` in bytes; rings 0 and 1 have theirs in every state (R482). -/
def State.spoolBytes (s : State) (n : Nat) : Nat :=
  1024 * (if n = 0 then 128 else if n = 1 then 64 else s.get (RING_DESC1_spool_kib n))

/-- The destination tag of ring `n` (R482, R486). -/
def State.ringTag (s : State) (n : Nat) : Nat := if n < 2 then n else s.get (RING_DESC0_tag n)

/-- Ring `n` beyond its registers. -/
def State.ring (s : State) (n : Nat) : RingSt := Sparse.get {} s.rings n

/-- Ring `n` replaced. -/
def State.setRing (s : State) (n : Nat) (r : RingSt) : State := s.withRings (Sparse.put {} s.rings n r)

/-- The bytes of a packet: header, payload and trailer (R494). -/
def Packet.size (p : Packet) : Nat := p.payload.length + 20

/-- The header words 0 to 2 and the index, as bytes 0 to 11, 14 and 15 (R494). -/
def Packet.headBytes (p : Packet) : List Byte :=
  leBytes 4 (p.seq % 2 ^ 16 + 2 ^ 16 * (p.pflags % 16) + 2 ^ 20 * (p.type % 16) + 2 ^ 24 * (p.ring % 256)) ++
  leBytes 4 (p.payload.length % 2 ^ 20 + 2 ^ 20 * (p.tag % 2 ^ 12)) ++ leBytes 4 p.frame ++ leBytes 2 p.index

/-- The 16-byte header with its CRC over bytes 0 to 11, 14 and 15 (R497). -/
def Packet.header (p : Packet) : List Byte :=
  p.headBytes.take 12 ++ leBytes 2 (crc16 p.headBytes) ++ p.headBytes.drop 12

/-- The packet as it leaves: header, payload and CRC-32C trailer (R494, R498). -/
def Packet.bytes (p : Packet) : List Byte := p.header ++ p.payload ++ leBytes 4 (crc32c p.payload)

/-- Bytes of the spool of ring `n` that are held or reserved (R487). -/
def State.spoolUsed (s : State) (n : Nat) : Nat :=
  ((s.ring n).spool.map Packet.size).sum + (s.ring n).reserved

/-- Free bytes of the spool of ring `n`. -/
def State.spoolFree (s : State) (n : Nat) : Nat := s.spoolBytes n - s.spoolUsed n

/-- RING_n_FILL follows the spool; a fill that rises above fill_irq is raised (16, RING_n_CTRL). -/
def State.refill (s : State) (n : Nat) : State :=
  let before := s.get (RING_FILL_now_kib n)
  let now := ceilDiv (s.spoolUsed n) 1024
  let s1 := (s.put (RING_FILL_now_kib n) now).put (RING_FILL_peak_kib n) (max now (s.get (RING_FILL_peak_kib n)))
  let th := s.get (RING_CTRL_fill_irq n)
  if th ≠ 0 ∧ th < now ∧ before ≤ th then
    (s1.hwSet RING_IRQ_STAT_fill).hwSet (RING_FILL_SRC_ring (n / 32)) (2 ^ (n % 32))
  else s1

/-- A packet is built on ring `n`: it takes the ring's next sequence number and its tag (R493, R494). `frame` and
`index` are the header's fields (R496), `refRing` is the reference video ring of a detection packet (R506). -/
def State.build (s : State) (n type pflags frame index : Nat) (payload : List Byte) (refRing : Nat := 0) : State :=
  let r := s.ring n
  let p : Packet :=
    { ring := n, type := type, pflags := pflags, seq := s.get (RING_SEQ_next n), tag := s.ringTag n,
      frame := frame % 2 ^ 32, index := index % 2 ^ 16, payload := payload, number := frame, refRing := refRing }
  let s1 := s.setRing n { r with spool := r.spool ++ [p] }
  ((s1.bumpWrap (RING_SEQ_next n)).put (RING_LAST_FRAME_frame n) frame).refill n

/-- A packet of a type that counts its own packets: 0, 6, 7 and 9 (R496). -/
def State.buildCounted (s : State) (n type : Nat) (payload : List Byte) : State :=
  let c := Sparse.get 0 (s.ring n).counts type
  let s1 := s.build n type 0 s.frameLow c payload
  s1.setRing n { s1.ring n with counts := Sparse.insert (s1.ring n).counts type (wrapAdd 16 c 1) }

/-- The link is ACTIVE (R536). -/
def State.linkActive (s : State) : Bool := s.get LNK_STATUS_state == 3

/-! ### Guarantees -/

/-- Rings with shares in force or demoted, their count of demoted ones, and the shares in force plus one, as shown. -/
def State.showCapacity (s : State) : State :=
  let rs := (List.range 256).filter fun n => decide (2 ≤ n)
  let dem := (rs.filter fun n => s.on (RING_CLASS_demoted n)).length
  let used := ((rs.filter fun n => s.on (RING_CLASS_in_force n)).map fun n => s.get (RING_CLASS_shares n)).sum + 1
  ((s.put LNK_CAPACITY_used (min 255 used)).put LNK_CAPACITY_demoted (min 255 dem)).put RING_STATUS_demoted dem

/-- Ring `n` returns to guaranteed service (R562). -/
def State.restoreRing (s : State) (n : Nat) : State :=
  let s1 := s.setRing n { s.ring n with restore := false }
  ((s1.put (RING_CLASS_demoted n) 0).put (RING_CLASS_in_force n) 1).showCapacity

/-- A restored ring becomes guaranteed at its next frame's first row (R562). -/
def State.restoreDue (s : State) (n : Nat) : State := if (s.ring n).restore then s.restoreRing n else s

/-- A packet that goes ahead of those that wait on ring `n`: it takes the first sequence number among them, and they
move up by one, so that the ring's numbers stay in the order of sending (R20; DESIGN CHOICE, notes/assumptions/20.md). -/
def State.buildFront (s : State) (n type : Nat) (payload : List Byte) : State :=
  let r := s.ring n
  let c := Sparse.get 0 r.counts type
  let ahead := (r.spool.filter fun p => p.type == type).length
  let p : Packet :=
    { ring := n, type := type, pflags := 0, seq := (s.get (RING_SEQ_next n) + 65536 - r.spool.length % 65536) % 65536
      tag := s.ringTag n, frame := s.frameLow, index := (c + 65536 - ahead % 65536) % 65536, payload := payload }
  let moved := r.spool.map fun q =>
    { q with seq := wrapAdd 16 q.seq 1, index := if q.type = type then wrapAdd 16 q.index 1 else q.index }
  let s1 := s.setRing n { r with spool := p :: moved, counts := Sparse.insert r.counts type (wrapAdd 16 c 1) }
  ((s1.bumpWrap (RING_SEQ_next n)).put (RING_LAST_FRAME_frame n) s.frameLow).refill n

/-- Those that take turns in ascending order: the first of `rs` after the one served last. -/
def turn (last : Nat) (rs : List Nat) : Option Nat :=
  match rs.find? fun n => decide (last < n) with
  | some n => some n
  | none => rs.head?

/-- One byte in a bucket's unit, 2^-24 / 25 of a byte: 160 MB/s is 4 / 25 byte in a nanosecond (R523). -/
def bucketUnit : Int := 2 ^ 24 * 25

/-- The shares that fill the bucket `n`: one for rings 0 and 1 (key 0), a guaranteed ring's own (R523). -/
def State.bucketShares (s : State) (n : Nat) : Nat :=
  if n = 0 then 1 else if s.on (RING_CLASS_in_force n) then s.get (RING_CLASS_shares n) else 0

/-- The level of a bucket now: filled at 160 MB/s per share since it was last charged, up to 32 KiB per share. A bucket
never charged stands at 0 (DESIGN CHOICE, notes/assumptions/21.md). -/
def State.bucket (s : State) (n : Nat) : Int :=
  match Sparse.find s.link.buckets n with
  | none => 0
  | some (v, c) =>
    let sh : Int := (s.bucketShares n : Nat)
    min (32768 * sh * bucketUnit) (v + sh * 4 * (s.get TIME_INC_inc : Nat) * ((s.cycle - c : Nat) : Int))

/-- A packet of `n` bytes is charged to a bucket, which falls to -16 404 bytes at the least (R523). -/
def State.charge (s : State) (k n : Nat) : State :=
  let v := max (-16404 * bucketUnit) (s.bucket k - (n : Int) * bucketUnit)
  s.withLink { s.link with buckets := Sparse.insert s.link.buckets k (v, s.cycle) }

/-! ### The event log -/

/-- The eight words of an entry (R659). -/
def LogEntry.words (e : LogEntry) : List Nat :=
  [e.cause % 256 + 256 * (e.kind % 256) + 65536 * (e.block % 32)] ++
  (List.range 5).map (fun i => nth e.args i % 2 ^ 32) ++ [e.stamp % 2 ^ 32, e.stamp / 2 ^ 32 % 2 ^ 32]

/-- SAFE_LOG_CFG.entries, where 0 acts as 1. -/
def State.logBatch (s : State) : Nat := max 1 (s.get SAFE_LOG_CFG_entries)

/-- An event log packet of the `n` oldest entries (R660). -/
def State.logPacket (s : State) (n : Nat) : State :=
  let es := s.safe.log.take n
  if es.isEmpty then s
  else
    let first := s.safe.logNext + 2 ^ 32 - s.safe.log.length
    let head := [es.length % 2 ^ 16 + 2 ^ 16 * (min s.safe.lostSince 65535), first % 2 ^ 32, 0, 0]
    let payload := wordBytes (head ++ es.flatMap LogEntry.words)
    let s1 := s.withSafe { s.safe with log := s.safe.log.drop n, lostSince := 0, logAged := false }
    (s1.put SAFE_LOG_STATUS_held s1.safe.log.length).buildCounted 1 7 payload

/-- A packet leaves the log when enough entries are held or the oldest has reached its age, as soon as ring 1 can send (R660). -/
def State.logFlush (s : State) : State :=
  let n := min s.logBatch s.safe.log.length
  if s.linkActive && (s.safe.logAged || decide (s.logBatch ≤ s.safe.log.length)) && decide (16 + 32 * n + 20 ≤ s.spoolFree 1) then
    s.logPacket n
  else s

/-- The words of the newest entry show in SAFE_LOG_LASTw. -/
def State.showLast (s : State) (e : LogEntry) : State :=
  (e.words.zip (List.range 8)).foldl (fun s p => s.setReg (aSAFE_LOG_LAST p.2) (BitVec.ofNat 32 p.1)) s

/-- One entry enters a buffer that has room (R659). -/
def State.logPut (s : State) (e : LogEntry) : State :=
  let s1 := s.withSafe { s.safe with log := s.safe.log ++ [e], logNext := (s.safe.logNext + 1) % 2 ^ 32 }
  (s1.put SAFE_LOG_STATUS_held s1.safe.log.length).showLast e

/-- An entry is appended, or lost while the buffer is full; the first entry after a loss is cause 0x95 (R661). -/
def State.log (s : State) (e : LogEntry) : State :=
  if 512 ≤ s.safe.log.length then
    ((s.withSafe { s.safe with lostSince := satAdd 16 s.safe.lostSince 1, lossPending := true }).bump
      SAFE_LOG_STATUS_lost).hwSet SAFE_IRQ_STAT_log_lost
  else if s.safe.lossPending then
    let s1 := (s.withSafe { s.safe with lossPending := false }).logPut
      { cause := 0x95, kind := 0, block := 19, args := [], stamp := s.now }
    if 512 ≤ s1.safe.log.length then
      ((s1.withSafe { s1.safe with lostSince := satAdd 16 s1.safe.lostSince 1, lossPending := true }).bump
        SAFE_LOG_STATUS_lost).hwSet SAFE_IRQ_STAT_log_lost
    else (s1.logPut e).logFlush
  else (s.logPut e).logFlush

/-- A cause report of kind 0, stamped now (R659). -/
def State.report (s : State) (cause block : Nat) (args : List Nat := []) : State :=
  s.log { cause := cause, kind := 0, block := block, args := args, stamp := s.now }

/-! ### FAULTB -/

/-- The bits of SAFE_FAULT_STAT whose condition stands (R644, the persistent kind). A synthesizer that a power state has
stopped does not count as one that is not locked (DEDUCED, notes/assumptions/74.md). -/
def State.faultConditions (s : State) : Nat :=
  b2n (s.clk.a.running && !s.clk.a.locked && s.on SYS_BOOT_REPORT_complete) * 2 ^ 3 +
  b2n (!s.clk.voteFails.isEmpty) * 2 ^ 5 +
  b2n (s.on SAFE_THERMAL_STAT_crit) * 2 ^ 6 +
  b2n (s.on SAFE_FAULTB_test) * 2 ^ 7 +
  b2n (s.on SAFE_BADGER_lost) * 2 ^ 16 +
  b2n (s.on SAFE_THERMAL_STAT_warn) * 2 ^ 17 +
  b2n (s.on SAFE_THERMAL_STAT_stale) * 2 ^ 18 +
  b2n (s.clk.b.running && !s.clk.b.locked && s.on LNK_CTRL_en) * 2 ^ 20 +
  b2n s.minimal * 2 ^ 21

/-- The level of FAULTB (R645): before boot step 11 and Minimal Mode it is held low (R152). -/
def State.faultLevel (s : State) : Nat :=
  if s.portsDead || !s.on SYS_BOOT_REPORT_complete then 2
  else if s.get SAFE_FAULT_STAT_fault ≠ 0 then 2
  else if land (s.get SAFE_FAULT_STAT_warn) (s.get SAFE_FAULT_EN_warn) ≠ 0 then 1
  else 0

/-- FAULTB takes the level of the conditions; an entry to level 1 begins with the low half-period (R645). -/
def State.showLevel (s : State) : State :=
  let l := s.faultLevel
  let was := s.get SAFE_FAULTB_level
  let s1 := s.put SAFE_FAULTB_level l
  if l = 1 ∧ was ≠ 1 then s1.withSafe { s1.safe with waveLow := true }
  else if l ≠ 1 then s1.withSafe { s1.safe with waveLow := false }
  else s1

/-- Bits of SAFE_FAULT_STAT are set, each newly set bit raising the interrupt of its class, and FAULTB follows. -/
def State.setFault (s : State) (m : Nat) : State :=
  let new := andNot m (s.reg aSAFE_FAULT_STAT).toNat
  let s1 := (s.hwSet SAFE_FAULT_STAT_fault (bits m 0 8)).hwSet SAFE_FAULT_STAT_warn (bits m 16 6)
  let s2 := if bits new 0 8 ≠ 0 then s1.hwSet SAFE_IRQ_STAT_fault else s1
  let s3 := if bits new 16 6 ≠ 0 then s2.hwSet SAFE_IRQ_STAT_warning else s2
  s3.showLevel

/-- The persistent conditions are looked at again (R644). -/
def State.refault (s : State) : State := s.setFault s.faultConditions

/-- FAULTB is low at the pin: held low at level 2, in the low half-period at level 1. -/
def State.faultbLow (s : State) : Bool :=
  s.get SAFE_FAULTB_level == 2 || (s.get SAFE_FAULTB_level == 1 && s.safe.waveLow)

end Sys2Proof.Machine
end

