-- ==== Sys2Proof/Machine/Crossroads.lean ====
section
/-! DEFINITION. Crossroads: trigger units, direct routes, requests by register, and the tasks that Crossroads itself
serves (R413 to R430). -/

namespace Sys2Proof.Machine

/-! ### Requests -/

/-- The task mask of unit `n`: EVENTS section, all 0 without one (R417, R418). -/
def State.taskMask (s : State) (n : Nat) : Nat := leAt (s.body 6 0) (0x20 + 8 * n) 8

/-- Every task of a mask receives a request in cycle `cycle` (R426). -/
def State.requestMask (s : State) (mask stamp : Nat) (forced : Bool) (kind who cycle : Nat) : State :=
  (setBitsOf 44 mask).foldl
    (fun s t => s.request { task := t, stamp := stamp, forced := forced, kind := kind, who := who, cycle := cycle }) s

/-- A write to EVF_TASK_FIRE_LO (`base` 0) or _HI (`base` 32): each named task is requested in this cycle (R426), a
task whose target does not exist is dropped and counted (R429), tasks 44 to 47 are ignored. -/
def State.taskFire (s : State) (p : Port) (base : Nat) (v : Word) : State :=
  ((setBitsOf 32 v.toNat).map (· + base)).foldl
    (fun s t =>
      if 44 ≤ t then s
      else if s.taskExists t then
        s.request { task := t, stamp := s.now, forced := false, kind := 2, who := p.num, cycle := s.cycle }
      else (s.bump EVF_TASK_DROPPED_count).hwSet EVF_IRQ_STAT_task_dropped) s

/-- The coalesce counter of task `t`. -/
def coalesceCount (t : Nat) : Fld := if t % 2 = 0 then EVF_COALESCE_lo (t / 2) else EVF_COALESCE_hi (t / 2)

/-- A task takes the requests that reach it in one cycle, and runs once (R427): the counter rises by the number of
requests less one, each request of a coalesced set is logged with the time base value of their cycle. -/
def State.coalesce (s : State) (t : Nat) (rs : List Request) : State :=
  let rest := s.evf.requests.filter fun q => !(q.task == t && rs.any fun r => r.cycle == q.cycle)
  let s1 := s.withEvf { s.evf with requests := rest }
  if rs.length ≤ 1 then s1
  else
    let s2 := ((s1.bump (coalesceCount t) (rs.length - 1)).hwSet EVF_IRQ_STAT_coalesced).count 124
    rs.foldl (fun s r => s.log { cause := 0, kind := 2, block := 12, args := [t, r.kind, r.who], stamp := r.made }) s2

/-- Task `t` is served: with no request due nothing happens; otherwise `f` acts on the earliest stamp (R443) and the
forced mark, which every coalesced request must carry (R427). -/
def State.serve (s : State) (t : Nat) (f : State → Nat → Bool → State) : State :=
  match s.due t with
  | [] => s
  | r :: rs => f (s.coalesce t (r :: rs)) (earliest (r :: rs)) ((r :: rs).all (·.forced))

/-! ### Trigger units -/

/-- The earliest of some stamped changes: stamp and interpolated mark, in the order of stamps modulo 2^64 (R434, R443). -/
def earliestOf (cs : List (Nat × Bool)) : Option (Nat × Bool) :=
  match cs with
  | [] => none
  | c :: r => some (r.foldl (fun a x => if earlier x.1 a.1 then x else a) c)

/-- The edge that channel `c` shows in this cycle (R419): some true rising, some false falling. -/
def State.edgeNow (s : State) (c : Nat) : Option Bool :=
  if s.channel c != bit s.evf.chPrev c then some (s.channel c) else none

/-- The qualifier of channel `c` for unit `n` takes an edge of that sense for a match (R420): a level change to P_c, a
rising, a falling, or any edge. -/
def State.takesEdge (s : State) (n c : Nat) (rising : Bool) : Bool :=
  match s.qual n c with
  | 0 => bit (s.get (EVF_TU_PATTERN_p n)) c == rising
  | 1 => rising
  | 2 => !rising
  | _ => true

/-- The stamp of the edge by which channel `c` came to match for unit `n` in this cycle: the earliest change of that sense
on its sources; the end of a pulse is a change at this cycle's arrival stamp. -/
def State.makingEdge (s : State) (n c : Nat) : Option (Nat × Bool) :=
  match s.edgeNow c with
  | none => none
  | some v =>
    if s.takesEdge n c v then
      let cs := s.evf.changes.filter fun x => x.rising == v && (s.channelSources c).contains x.src
      some ((earliestOf (cs.map fun x => (x.stamp, x.interp))).getD (s.now, false))
    else none

/-- The stamp of the change that made the condition of unit `n` true in this cycle, the earliest of several (R443). -/
def State.makingChange (s : State) (n : Nat) : Option (Nat × Bool) := earliestOf ((s.watched n).filterMap (s.makingEdge n))

/-- The stamp of the change that made the standing condition of unit `n` true (R443): of this cycle, else the one recorded
when the condition became true. A condition that a register write made true has no such change, and the spec states no
stamp: a free value (DESIGN CHOICE, notes/assumptions/73.md). -/
def State.fireStamp (s : State) (n : Nat) : (Nat × Bool) × State :=
  match s.makingChange n, (s.unit n).since with
  | some c, _ => (c, s)
  | none, some c => (c, s)
  | none, none => ((s.free.1 % 2 ^ 64, false), s.free.2)

/-- Unit `n` is armed. -/
def State.armed (s : State) (n : Nat) : Bool := s.on (EVF_TU_CTRL_armed n)

/-- Unit `n` may fire in this cycle: armed, its mode not Off, no holdoff running (R423, R424), not fired yet. -/
def State.mayFire (s : State) (n : Nat) : Bool :=
  decide (n < 8) && s.get (EVF_TU_CTRL_mode n) != 0 && s.armed n && !(s.unit n).holding && !(s.unit n).fired

/-- Unit `n` fires in this cycle (R421): its condition is true and was false in the previous cycle. -/
def State.fires (s : State) (n : Nat) : Bool := s.mayFire n && s.condition n && !(s.unit n).prevTrue

/-- The effects of a fire with stamp `st` (R423 to R426, R430, R443): the statistics, the disarming of a single unit,
the holdoff, the fired source and the task requests in the next cycle, and the log entry. -/
def State.fireUnit (s : State) (n st : Nat) (interp forced : Bool) : State :=
  let mode := s.get (EVF_TU_CTRL_mode n)
  let s1 := (((s.bumpWrap (EVF_TU_STAT_fires n)).put (EVF_TU_STAT_last_forced n) (b2n forced)).put
    (EVF_TU_STAT_interp n) (b2n interp)).put64 (aEVF_TU_STAMP_LO n) (aEVF_TU_STAMP_HI n) st
  let s2 := if mode = 2 then s1.put (EVF_TU_CTRL_armed n) 0 else s1
  let hold := mode ≠ 2 ∧ s.get (EVF_TU_CTRL_holdoff n) ≠ 0
  let s3 := s2.setUnit n { s2.unit n with fired := true, holding := decide hold }
  let s4 := s3.withEvf { s3.evf with pulsesNext := s3.evf.pulsesNext ++ [87 + n] }
  let s5 := s4.requestMask (s.taskMask n) st forced 0 n (s.cycle + 1)
  if s.on (EVF_TU_CTRL_log n) then
    s5.log { cause := 0, kind := 1, block := 12, args := [n + 8 * b2n forced], stamp := st }
  else s5

/-- TRIGGER_UNIT_FIRE: an armed unit whose condition has become true fires, with the stamp of the change that made it
true (R421, R443). -/
def execTriggerUnitFire (unit : Nat) (s : State) : Host.Outcome State Fault Refusal :=
  .next (if s.fires unit then
    let c := s.fireStamp unit
    c.2.fireUnit unit c.1.1 c.1.2 false
  else s)

/-- FORCED_TRIGGER: in mode 3 the timeout of R425 has expired; a true fire of the same cycle is taken instead. -/
def execForcedTrigger (unit : Nat) (s : State) : Host.Outcome State Fault Refusal :=
  .next (if s.mayFire unit && s.get (EVF_TU_CTRL_mode unit) == 3 && !s.fires unit then
    ((s.fireUnit unit s.now false true).bump (EVF_TU_STAT_forced unit)).hwSet EVF_IRQ_STAT_forced
  else s)

/-- HOLDOFF_EXPIRY: the unit may fire again (R424). -/
def execHoldoffExpiry (unit : Nat) (s : State) : Host.Outcome State Fault Refusal :=
  .next (s.setUnit unit { s.unit unit with holding := false })

/-- Unit `n` is armed; its previous condition counts as false in this cycle (R421). -/
def State.armUnit (s : State) (n : Nat) : State :=
  (s.put (EVF_TU_CTRL_armed n) 1).setUnit n { s.unit n with prevTrue := false }

/-- A write of EVF_TUn_CTRL (R423): mode 0 disarms, a change of mode from 0 arms, and so does arm in mode 2. -/
def State.unitCtrlWrite (s : State) (n : Nat) (v : Word) : State :=
  let was := s.get (EVF_TU_CTRL_mode n)
  let s1 := s.plainWrite (aEVF_TU_CTRL n) v
  let mode := bits v.toNat 0 2
  if mode = 0 then s1.put (EVF_TU_CTRL_armed n) 0
  else if was = 0 ∨ (mode = 2 ∧ bit v.toNat 2) then s1.armUnit n
  else s1

/-- TRIGGER_UNIT_ARM: a write of EVF_TUn_CTRL. -/
def execTriggerUnitArm (unit : Nat) (value : Word) (s : State) : Host.Outcome State Fault Refusal :=
  .next (if unit < 8 then s.unitCtrlWrite unit value else s)

/-- A write to a pattern, don't-care or qualifier register of unit `n` sets its previous condition to true (R422); no change
of a source has made the new condition true. -/
def State.unitConfigWrite (s : State) (n a : Nat) (v : Word) : State :=
  (s.plainWrite a v).setUnit n { s.unit n with prevTrue := true, since := none }

/-- TRIGGER_UNIT_CONFIG_WRITE: register `reg` is 0 _PATTERN, 1 _DONTCARE, 2 _QUAL_LO, 3 _QUAL_HI. -/
def execTriggerUnitConfigWrite (unit reg : Nat) (value : Word) (s : State) : Host.Outcome State Fault Refusal :=
  .next (if unit < 8 ∧ reg < 4 then s.unitConfigWrite unit (aEVF_TU_PATTERN unit + 4 * reg) value else s)

/-! ### Direct routes -/

/-- Direct route `k`'s word, if the EVENTS section has it (R417). -/
def State.route? (s : State) (k : Nat) : Option Nat :=
  let b := s.body 6 0
  if k < leAt b 0 1 then some (leAt b (0x60 + 4 * k) 4) else none

/-- Source `src` shows an edge of the kind 0 rising, 1 falling, 2 either in this cycle (R417, R426). -/
def State.sourceEdge (s : State) (src kind : Nat) : Bool :=
  let now := s.source src
  let was := bit s.evf.srcPrev src
  now != was && (kind == 2 || (kind == 0 && now) || (kind == 1 && was))

/-- DIRECT_ROUTE_REQUEST: the route's source shows its edge, and the route's task is requested in this cycle, with the
stamp of the change (R426). -/
def execDirectRouteRequest (route : Nat) (s : State) : Host.Outcome State Fault Refusal :=
  .next (match s.route? route with
  | none => s
  | some w =>
    if s.sourceEdge (bits w 0 7) (bits w 14 2) &&
        !(s.evf.requests.any fun r => r.kind == 1 && r.who == route && r.cycle == s.cycle) then
      s.request { task := bits w 8 6, forced := false, kind := 1, who := route, cycle := s.cycle,
                  stamp := ((earliestOf ((s.evf.changes.filter fun c => c.src == bits w 0 7).map
                    fun c => (c.stamp, c.interp))).getD (s.now, false)).1 }
    else s)

/-! ### Tasks that this chapter serves -/

/-- RAISE_INTERRUPT: tasks 10 to 13 set task_irq bit 0 to 3 (R415). -/
def execRaiseInterrupt (bit : Nat) (s : State) : Host.Outcome State Fault Refusal :=
  .next (if bit < 4 then s.serve (10 + bit) fun s _ _ => s.hwSet EVF_IRQ_STAT_task_irq (2 ^ bit) else s)

/-- CAPTURE: task 17 copies the request's stamp into EVF_CAPTURE (R415). -/
def execCapture (s : State) : Host.Outcome State Fault Refusal :=
  .next (s.serve 17 fun s st _ => s.put64 aEVF_CAPTURE_LO aEVF_CAPTURE_HI st)

/-- ARM_TRIGGER_UNIT: tasks 34 to 41 arm a unit in single mode (R415, R423). -/
def execArmTriggerUnit (unit : Nat) (s : State) : Host.Outcome State Fault Refusal :=
  .next (if unit < 8 then
    s.serve (34 + unit) fun s _ _ => if s.get (EVF_TU_CTRL_mode unit) = 2 then s.armUnit unit else s
  else s)

/-- A snapshot of all counters and the time base, with the values before any clear of this cycle; a second request in
one cycle changes nothing (R664). -/
def State.snapshot (s : State) : State :=
  if s.cnt.snapped then s
  else
    let s1 := (List.range 32).foldl
      (fun s k =>
        let v := (Sparse.find s.cnt.cleared k).getD (s.counter k)
        s.put64 (aCNT_SNAP k 0) (aCNT_SNAP k 1) v) s
    let s2 := (s1.put64 aCNT_SNAP_STAMP_LO aCNT_SNAP_STAMP_HI s.now).hwSet CNT_IRQ_STAT_snapshot
    s2.withCnt { s2.cnt with snapped := true }

/-- SNAPSHOT_THE_EVENT_COUNTERS: task 42, or CNT_CTRL.snap (R664). -/
def execSnapshotTheEventCounters (byTask : Bool) (s : State) : Host.Outcome State Fault Refusal :=
  .next (if byTask then s.serve 42 fun s _ _ => s.snapshot else s.snapshot)

/-- A software entry of the event log, kind 5 (R659): written value and port, or 0 and 4 for task 43. -/
def State.softEntry (s : State) (value port : Nat) : State :=
  s.log { cause := 0, kind := 5, block := 19, args := [value, port], stamp := s.now }

/-- APPEND_A_SOFTWARE_ENTRY: task 43 (no port), or a write to SAFE_LOG_SW through a port. The entry of the task carries
the request's stamp. -/
def execAppendASoftwareEntry (port : Option Port) (value : Word) (s : State) : Host.Outcome State Fault Refusal :=
  .next (match port with
  | some p => s.softEntry value.toNat p.num
  | none => s.serve 43 fun s st _ => s.log { cause := 0, kind := 5, block := 19, args := [0, 4], stamp := st })

/-- A change of the software events: sources 38 to 45 take the bits of EVF_SW (R413). -/
def State.softEvents (s : State) (v : Word) : State :=
  (List.range 8).foldl (fun s i => s.arrive (38 + i) (bit v.toNat i)) (s.plainWrite aEVF_SW v)

end Sys2Proof.Machine
end

