-- ==== Sys2Proof/Machine/Frames.lean ====
section
/-! DEFINITION. Frames: what the sampling instant brings into force (R229 to R243, R250 to R255, R705 to R707), the
slot grid, the acceptance of triggers (R246, R247), and the flags a frame gathers. -/

namespace Sys2Proof.Machine

/-! ### The TIMING section (R257) -/

/-- The TIMING section in force. -/
def State.timing (s : State) : List Byte := s.body 2 0

/-- Its mode: 0 rolling, 1 global, 2 rolling pulsed. -/
def State.tmMode (s : State) : Nat := leAt s.timing 0 1

/-- Its number of exposures. -/
def State.tmExps (s : State) : Nat := leAt s.timing 1 1

/-- The stamp `d` after the PIX edge of this cycle, in units of 2^-24 ns. -/
def State.stampAfter (s : State) (d : Nat) : Nat := (s.pixEdge + d) / 256 % 2 ^ 64

/-- From the PIX edge before a pin edge to the start that it triggers (R245): the PIX edge that captures it is the next
one, and 35 ns more are fixed. -/
def State.pinLaunch (s : State) : Nat := s.pixPeriod + 35 * 2 ^ 24

/-- From the PIX edge at which a request is taken to the start: 4 PIX cycles (R708). -/
def State.taskLaunch (s : State) : Nat := 4 * s.pixPeriod

/-! ### The slot grid -/

/-- The lag of exposure `e`. -/
def Frame.lag (f : Frame) (e : Nat) : Nat := nth f.lags e

/-- Physical rows (R228): 40 optical-black, 2 048 active and 8 dummy rows. -/
def physRows : Nat := 2096

/-- The slots of a frame's readout: rolling until the last row of the last exposure (R232), 4 192 in global (R241). -/
def Frame.slots (f : Frame) : Nat :=
  if f.mode = 1 then 2 * physRows else f.exps * (physRows + f.lag (f.exps - 1))

/-- The (physical row, exposure or storage node) that slot `j` serves (R232, R241), if any. -/
def Frame.serves (f : Frame) (j : Nat) : Option (Nat × Nat) :=
  if f.mode = 1 then
    if j < 2 * physRows then some (j / 2, j % 2) else none
  else
    let e := j % f.exps
    let q := j / f.exps
    if f.lag e ≤ q ∧ q - f.lag e < physRows then some (q - f.lag e, e) else none

/-- The start of the read slot of physical row `p`, exposure `e`, in PIX cycles from the readout start. -/
def Frame.readAt (f : Frame) (p e : Nat) : Nat :=
  (if f.mode = 1 then 2 * p + e else f.exps * (p + f.lag e) + e) * f.rowPix

/-- Slots from a readout end until the first self-test slot: none in rolling modes, the flush in global (R242, R289). -/
def Frame.flush (f : Frame) : Nat := if f.mode = 1 then 524 else 0

/-! ### Exposure limits -/

/-- A value limited from below, whether it changed or was changed before. -/
def raise (x lo : Nat × Bool) : Nat × Bool := if x.1 < lo.1 then (lo.1, true) else (x.1, x.2)

/-- A value limited from above. -/
def lower (x : Nat × Bool) (hi : Nat) : Nat × Bool := if hi < x.1 then (hi, true) else x

/-- Sub-pulse width of R238: the integration shared among `n` sub-pulses, between 8 and `q` - 16. -/
def pulseWidth (x n q : Nat) : Nat := max 8 (min (x / n) (q - 16))

/-- The window w_p of a pulsed exposure (R239). -/
def pulseWindow (x n q : Nat) : Nat := (n - 1) * q + pulseWidth x n q

/-- The largest count from 1 to `n` whose sub-pulses fit into `avail` (R705). -/
def pulsesFit (n q avail : Nat) : Nat :=
  match n with
  | 0 => 1
  | k + 1 => if k * q + 8 ≤ avail then k + 1 else pulsesFit k q avail

/-- N' and W of a pulsed exposure in an available window, and whether they fell short (R705). -/
def pulseFit (x n q avail : Nat) : Nat × Nat × Bool :=
  let n' := pulsesFit n q avail
  let w := pulseWidth x n' q
  let w' := max 8 (min w (avail - (n' - 1) * q))
  (n', w', n' != n || w' != w)

/-- The settings from which lags follow: E, T_row, L_max, and the pulsed exposure with N and Q (none: `exps`). -/
structure LagIn where
  exps : Nat
  row : Nat
  lmax : Nat
  pulseExp : Nat
  n : Nat
  q : Nat
deriving DecidableEq, Repr

/-- Exposures, lags, sub-pulses (N', W) of the pulsed exposure, and the clamp mark, as step 4 of R250 builds them. -/
structure Lags where
  x : List Nat
  lags : List Nat
  pulse : Nat × Nat
  clamped : Bool
deriving DecidableEq, Repr

/-- Step 4 of R250 for one exposure (R233, R235, R236, R705). -/
def lagStep (c : LagIn) (a : Lags) (x : Nat) : Lags :=
  let e := a.x.length
  let prev := nth a.lags (e - 1)
  let win := if e = c.pulseExp then pulseWindow x c.n c.q else x
  let want := prev + ceilDiv (win + 16 - c.row) (c.exps * c.row)
  let l := min want c.lmax
  let avail := (c.exps * (l - prev) + 1) * c.row - 16
  if e = c.pulseExp then
    let f := pulseFit x c.n c.q avail
    { x := a.x ++ [x], lags := a.lags ++ [l], pulse := (f.1, f.2.1), clamped := a.clamped || f.2.2 || l != want }
  else
    let y := if l = want then (x, a.clamped) else lower (x, a.clamped) avail
    { x := a.x ++ [y.1], lags := a.lags ++ [l], pulse := a.pulse, clamped := y.2 || l != want }

/-- Steps 2 and 3 of R250: at least 8, and not above the exposure before. -/
def floorOrder (xs : List Nat) : List Nat × Bool :=
  xs.foldl
    (fun a x =>
      let y := raise (x, a.2) (8, true)
      let z := match a.1.getLast? with | none => y | some p => lower y p
      (a.1 ++ [z.1], z.2)) ([], false)

/-! ### What a frame samples -/

/-- X_0 of the frame that will be number `k` (R254). -/
def State.pickX0 (s : State) (k : Nat) : Nat :=
  let reg := s.lget (SHT_EXP_exp 0)
  if s.sht.hostExp then reg
  else
    match s.get SHT_CTRL_gov_mode, Sparse.find s.sht.results k with
    | 1, some r => r
    | 0, _ => reg
    | _, _ =>
      if !s.sht.sampled then reg
      else match s.sht.cur with | some f => nth f.x 0 | none => (match s.sht.next with | some f => nth f.x 0 | none => reg)

/-- The bounds of the governor on X_0 (R255). -/
def State.govBound (s : State) (x : Nat) : Nat :=
  let hi := s.get SHT_GOV_MAX_bound
  let lo := min (s.get SHT_GOV_MIN_bound) hi
  max lo (min x hi)

/-- X_1 to X_(E-1): from the ratios while the governor is in run or hold, else from the registers. -/
def State.followers (s : State) (x0 n : Nat) : List Nat :=
  match n with
  | 0 => []
  | m + 1 =>
    let r := fun e => max 16 (if e = 1 then s.get SHT_GOV_RATIO_ratio_1
      else if e = 2 then s.get SHT_GOV_RATIO_ratio_2 else s.get SHT_GOV_RATIO_ratio_3)
    if s.get SHT_CTRL_gov_mode = 0 then (List.range (m + 1)).map fun e => if e = 0 then x0 else s.lget (SHT_EXP_exp e)
    else
      (List.range m).foldl (fun a e => a ++ [a.getLast?.getD x0 * 16 / r (e + 1)]) [x0]

/-- The minimum frame period of a mode at a row time (R237, R242). -/
def minPeriod (mode exps row x1 : Nat) : Nat :=
  if mode = 1 then (if exps = 2 then 4876 * row + 800 + x1 else 4876 * row + 400) else exps * 2170 * row

/-- The exposure-0 window, less 16 PIX cycles, of a rolling frame after `prev`, smallest over all rows (R234, R235,
R237); without a previous frame, that of equal timing (R706). -/
def exp0Room (prev : Option Frame) (period exps row lastLag : Nat) : Nat :=
  match prev with
  | none => period - (exps * lastLag + exps - 1) * row - 16
  | some g =>
    let read p := g.readAt p (g.exps - 1)
    min (period - read 0) (period + exps * (physRows - 1) * row - read (physRows - 1)) - 16

/-- The merge ratio of exposure `e` (R341). -/
def mergeRatio (x0 h0 xe he : Nat) : Nat :=
  if xe * h0 = 0 then 1048575 else min 1048575 ((x0 * he * 1024 + xe * h0 / 2) / (xe * h0))

/-- The frame that a sampling instant fixes (R231, R250, R341, R344, R705, R707), for the frame that will be number
`k`; `prev` is the frame before it, none after a take-up of run. -/
def State.sample (s : State) (k : Nat) (prev : Option Frame) : Frame :=
  let mode := s.tmMode
  let exps := s.tmExps
  let trig := s.lon SHT_CTRL_trig_mode
  let row := max (s.lget SHT_ROW_TIME_row_pix) (leAt s.timing 2 2)
  let minPix := leAt s.timing 4 4
  let pulseExp := if mode = 2 then leAt s.timing 8 1 else exps
  let n := leAt s.timing 9 1
  let q := leAt s.timing 12 4
  let x0 := s.pickX0 k
  let g0 := if s.get SHT_CTRL_gov_mode = 0 then x0 else s.govBound x0
  let fo := floorOrder (s.followers g0 exps)
  let asked := if trig then minPix else s.lget SHT_FRAME_PERIOD_period
  let period := max asked (max minPix (minPeriod mode exps row (nth fo.1 1)))
  let c0 := g0 != x0 || fo.2
  let li : LagIn := { exps := exps, row := row, lmax := period / (exps * row) - 2104, pulseExp := pulseExp, n := n, q := q }
  let start : Lags :=
    { x := [nth fo.1 0], lags := [0], clamped := c0, pulse := (n, pulseWidth (nth fo.1 0) n q) }
  let l := if mode = 1 then { x := fo.1, lags := [], pulse := (0, 0), clamped := c0 } else fo.1.tail.foldl (lagStep li) start
  let room :=
    if mode = 1 then
      match prev with
      | none => 2 ^ 32
      | some g => period - 400 - (if g.mode = 1 ∧ g.exps = 2 then 400 + nth g.x 1 else 0)
    else exp0Room prev period exps row (l.lags.getLast?.getD 0)
  let first := pulseFit (nth l.x 0) n q room
  let y0 := if trig ∨ pulseExp = 0 then (nth l.x 0, l.clamped) else lower (nth l.x 0, l.clamped) room
  let xs := l.x.set 0 y0.1
  let pulse := if pulseExp = 0 ∧ !trig then (first.1, first.2.1) else l.pulse
  let clamped := y0.2 || (decide (pulseExp = 0) && !trig && first.2.2)
  let eff := (List.range exps).map fun e => if e = pulseExp then pulse.1 * pulse.2 else nth xs e
  let gain := s.lget SHT_GAIN_hcg
  let lcg := if s.lget PIPE_MERGE_lcg_ratio = 0 then 1024 else s.lget PIPE_MERGE_lcg_ratio
  let h e := if bit gain e then 1024 else lcg
  { number := k, mode := mode, exps := exps, rowPix := row, period := period, minPix := minPix
    x := xs, eff := eff, lags := l.lags, pulseExp := pulseExp, pulses := pulse.1, width := pulse.2, spacing := q
    gain := gain, trigMode := trig, clamped := clamped, first := prev.isNone
    limit := decide (s.lget SHT_ROW_TIME_row_pix < row) || decide (asked < period)
    ratios := (List.range exps).map fun e => if e = 0 then 1024 else mergeRatio (nth eff 0) (h 0) (nth eff e) (h e)
    excluded := if mode = 1 then [] else
      (List.range (exps - 1)).filter fun e => decide (255 < nth l.lags (exps - 1) - nth l.lags e) }

/-- A sampling instant for frame `k`: a written SHT_EXP0 discards every governor result computed from a frame before
`k` (R254), and a raised row time or period is reported (R229, R237). The result for `k` stays until a frame after it samples: a
take-up of run may sample `k` again (R706). -/
def State.takeSample (s : State) (k : Nat) (prev : Option Frame) : State :=
  let f := s.sample k prev
  let sh := s.sht
  let sh1 := { sh with
    next := some f, sampled := true, hostExp := false
    results := if sh.hostExp then [] else sh.results.filter fun r => decide (k ≤ r.1)
    govFrom := if sh.hostExp then k else sh.govFrom }
  let s1 := s.withSht sh1
  if f.limit then s1.hwSet SHT_IRQ_STAT_limit else s1

/-! ### Triggers -/

/-- A trigger is honoured at all (R244): trig_mode and run at 1, in STREAM. -/
def State.trigHonoured (s : State) : Bool :=
  s.lon SHT_CTRL_trig_mode && s.on SHT_CTRL_run && s.power == 4 && s.sht.running

/-- The acceptance conditions of a trigger whose integration or first shutter falls `since` PIX cycles after the
previous readout start (R246, R247), also where run was taken up since; nothing precedes the first frame. -/
def Frame.accepts (f : Frame) (prev : Option Frame) (since : Nat) : Bool :=
  match prev with
  | none => true
  | some g =>
    let lead := if f.mode = 1 then nth f.x 0 + 400 + (if f.exps = 2 then nth f.x 1 + 400 else 0) else nth f.x 0
    decide (f.minPix ≤ since + lead) &&
      (if f.mode = 1 then
        decide (0 < since) && (g.mode != 1 || decide (4876 * g.rowPix ≤ since + nth f.x 0))
       else [0, physRows - 1].all fun p =>
          decide (g.readAt p (g.exps - 1) + 16 ≤ since + p * f.exps * f.rowPix))

/-- A trigger reaches the timing generator; what it starts stands `launch` after the PIX edge of this cycle. `rolls` says
whether it may start a rolling frame (R248). -/
def State.trigger (s : State) (since launch : Nat) (rolls forced : Bool) : State :=
  if !s.trigHonoured then s
  else
    let ignored := ((s.bump SHT_TRIG_IGNORED_count).hwSet SHT_IRQ_STAT_trig_ignored).countN 118 1
    match s.sht.next with
    | none => ignored
    | some f =>
      if s.sht.accepted || s.sht.phase != 0 || (f.mode != 1 && !rolls) || !f.accepts s.sht.cur since then ignored
      else
        let g := { f with triggered := true, forced := forced }
        if f.mode = 1 then
          (s.withSht { s.sht with next := some g, accepted := true }).put SHT_STATUS_integrating 1
        else
          let h := { g with stamp := s.stampAfter launch, epoch := s.get TIME_STATUS_epoch, synced := s.on TIME_STATUS_synced }
          ((s.withSht { s.sht with next := some h, accepted := true }).put SHT_STATUS_integrating 1).pulse 49

/-! ### Frame flags -/

/-- Every frame that is integrating or being read out is changed by `g`. -/
def State.mapFrames (s : State) (g : Frame → Frame) : State :=
  let sh := s.sht
  let integrating := sh.accepted || sh.phase != 0
  s.withSht { sh with
      next := if integrating then sh.next.map g else sh.next
      cur := if sh.reading then sh.cur.map g else sh.cur }

/-- Some episode of R655 is active: VAA, VAD, VDD, VDDM or VDDL (rails 1 to 5). -/
def State.railActive (s : State) : Bool := s.supply.episodes.any fun e => decide (1 ≤ e.rail) && decide (e.rail ≤ 5)

/-- An episode on VAA or VAD is active (R654). -/
def State.analogActive (s : State) : Bool := s.supply.episodes.any fun e => e.rail == 1 || e.rail == 2

/-- A thermal condition holds (R657). -/
def State.thermalActive (s : State) : Bool := s.on SAFE_THERMAL_STAT_warn || s.on SAFE_THERMAL_STAT_crit

/-- BROWNOUT and THERMAL_WARN of a frame whose integration started at `stamp` (R655, R657): the condition holds now or
ended since then. -/
def State.gather (s : State) (f : Frame) : Frame :=
  let since e := decide ((e + 2 ^ 64 - f.stamp) % 2 ^ 64 < 2 ^ 63)
  { f with
    brownout := f.brownout || s.railActive || (s.safe.railSeen && since s.safe.railEnd)
    thermal := f.thermal || s.thermalActive || (s.safe.thermalSeen && since s.safe.thermalEnd)
    checkerLost := f.checkerLost || s.on SAFE_BADGER_lost }

end Sys2Proof.Machine
end

