-- ==== Sys2Proof/Machine/Pipeline.lean ====
section
/-! DEFINITION. Window descriptors (R259 to R272) and the pixel pipeline: black level, substitution, defects, merge,
binning, companding, formats and packing (R330 to R350). -/

namespace Sys2Proof.Machine

/-! ### Window descriptors -/

/-- A window descriptor (R260). -/
structure Win where
  flags : Nat
  bin : Nat
  format : Nat
  expSel : Nat
  x : Nat
  y : Nat
  w : Nat
  h : Nat
  ring : Nat
  curve : Nat
  div : Nat
  phase : Nat
  tap : Nat
  tapScale : Nat
  tapDiv : Nat
  writer : Nat
deriving DecidableEq, Repr

/-- The descriptor in 32 bytes (R260). -/
def winOf (b : List Byte) : Win :=
  let u o := leAt b o 1
  let v o := leAt b o 2
  { flags := u 0, bin := u 1, format := u 2, expSel := u 3, x := v 4, y := v 6, w := v 8, h := v 10, ring := u 12
    curve := u 13, div := u 14, phase := u 15, tap := u 16, tapScale := u 17, tapDiv := u 18, writer := u 19 }

/-- The bytes of descriptor `i` (R259), empty where its instance is absent. -/
def winBytes (body : Nat → Nat → List Byte) (i : Nat) : List Byte := sliceBytes (body 3 (i / 32)) (32 * (i % 32)) 32

/-- Window `i` of the structure in force, if it exists (R259). -/
def State.window? (s : State) (i : Nat) : Option Win :=
  let w := winOf (winBytes s.body i)
  if i < 1024 ∧ bit w.flags 0 then some w else none

/-- The numbers of the existing windows. -/
def State.windows (s : State) : List Nat := (List.range 1024).filter fun i => (s.window? i).isSome

/-- Output width, output height and bits per pixel (R261, R262). -/
def Win.outW (w : Win) : Nat := w.w / 2 ^ w.bin
def Win.outH (w : Win) : Nat := w.h / 2 ^ w.bin
def Win.bpp (w : Win) : Nat := nth [12, 16, 20, 12, 10] w.format

/-- The bytes of a row payload (R262). -/
def Win.rowBytes (w : Win) : Nat := w.outW * w.bpp / 8

/-- The window feeds a tap, or a writer (R270, R271). -/
def Win.tapOn (w : Win) : Bool := bit w.flags 2
def Win.writerOn (w : Win) : Bool := bit w.flags 3

/-- Active row `a` lies in the binned band: the crop rows of every 2×2 window (R266). -/
def State.inBand (s : State) (a : Nat) : Bool :=
  s.windows.any fun i =>
    match s.window? i with
    | some w => w.bin == 1 && decide (w.y ≤ a) && decide (a < w.y + w.h)
    | none => false

/-- The anchor of window `i` (R268). -/
def State.anchor (s : State) (i : Nat) : Nat := Sparse.get 0 s.cfg.anchors i

/-- Window `i` samples device frame `n` (R268): by its anchor, on full frame numbers. -/
def State.samples (s : State) (i : Nat) (w : Win) (n : Nat) : Bool :=
  ((n : Int) - (s.anchor i : Int)) % (w.div : Int) == (w.phase : Int)

/-- The tap of window `i` takes frame `n`: every tap_div-th frame that the window samples, counted from its anchor
(R270). -/
def State.tapTakes (s : State) (i : Nat) (w : Win) (n : Nat) : Bool :=
  w.tapOn && s.samples i w n &&
    ((((n : Int) - (s.anchor i : Int)) / (w.div : Int)) % (w.tapDiv : Int) == 0)

/-- The input rows of output row `k`, as active rows, and the input columns of output column `i` (R266, R345, R346). -/
def Win.inRows (w : Win) (k : Nat) : List Nat :=
  if w.bin = 0 then [w.y + k]
  else if w.bin = 1 then [w.y + 4 * (k / 2) + k % 2]
  else [0, 2, 4, 6].map fun o => w.y + 8 * (k / 2) + k % 2 + o
def Win.inCols (w : Win) (i : Nat) : List Nat :=
  if w.bin = 0 then [w.x + i]
  else if w.bin = 1 then [w.x + 4 * (i / 2) + i % 2]
  else [0, 2, 4, 6].map fun o => w.x + 8 * (i / 2) + i % 2 + o

/-! ### Black level -/

/-- The colour phase of physical row `p`, active column `c` (11, Stages). -/
def phaseOf (p c : Nat) : Nat := 2 * (p % 2) + c % 2

/-- The black level in force of a bank, exposure and phase (R332). -/
def State.bl (s : State) (b e q : Nat) : Int := toSigned 16 (s.get (PIPE_BL_bl b e q))

/-- The codes of physical row `p`, exposure `e` enter the sums of the black level (R331). -/
def State.blackSum (s : State) (codes : List (Option Int)) (p e : Nat) : State :=
  let key b q := 16 * b + 4 * e + q
  let sums := (List.range 24).foldl
    (fun t b =>
      let row := (codes.drop (224 * b)).take 224
      [0, 1].foldl
        (fun t o =>
          let cs := ((row.zip (List.range 224)).filter fun x => x.2 % 2 == o).filterMap (·.1)
          let old := Sparse.get (0, 0) t (key b (phaseOf p o))
          Sparse.insert t (key b (phaseOf p o)) (old.1 + cs.sum, old.2 + cs.length)) t) s.pipe.sums
  (s.withPipe { s.pipe with sums := sums })

/-- The measurement of an entry (R331), none without a pixel. -/
def blackMeasure (x : Int × Nat) : Option Int :=
  if x.2 = 0 then none else some ((16 * x.1 + (x.2 / 2 : Nat)) / (x.2 : Int))

/-- The black level of exposure `e` is complete (R332, R333): the first frame after a take-up takes the measurement,
later ones filter it; an entry without one keeps its value, 0 in the first frame. -/
def State.blackFinish (s : State) (e : Nat) (first : Bool) : State :=
  let k := s.lget PIPE_CTRL_bl_filter
  (List.range 24).foldl
    (fun s b =>
      (List.range 4).foldl
        (fun s q =>
          match blackMeasure (Sparse.get (0, 0) s.pipe.sums (16 * b + 4 * e + q)) with
          | none =>
            let s1 := s.hwSet PIPE_IRQ_STAT_bl_missing
            if first then s1.put (PIPE_BL_bl b e q) 0 else s1
          | some m =>
            let prev := s.bl b e q
            let v := if first then m else prev + (m - prev) / (2 ^ k : Nat)
            s.put (PIPE_BL_bl b e q) (ofSigned 16 (clampInt (-32768) 32767 v))) s) s

/-! ### Substitution and defects -/

/-- The mean of R335, rounded: of both neighbours, the one that exists, or 0. -/
def meanOf (a z : Option Int) : Int :=
  match a, z with
  | some x, some y => (x + y + 1) / 2
  | some x, none => x
  | none, some y => y
  | none, none => 0

/-- The nearest live neighbour of column `c` among the given distances, below or above (R335, R336). -/
def nearest (d : Array (Option Int)) (c : Nat) (dist : List Nat) (below : Bool) : Option Int :=
  dist.findSome? fun k => if below then (if k ≤ c then d.getD (c - k) none else none) else d.getD (c + k) none

/-- A row after black level and substitution (R334 to R337). In a binned row a pair stands at its first column, and
columns 4m + 2 and 4m + 3 hold nothing. -/
def substitute (d : List (Option Int)) (binned : Bool) : List Int :=
  let a := d.toArray
  let dist := if binned then [4, 8, 12, 16] else [2, 4, 6, 8]
  (d.zip (List.range d.length)).map fun x =>
    match x.1 with
    | some v => v
    | none => if binned ∧ 2 ≤ x.2 % 4 then 0 else meanOf (nearest a x.2 dist true) (nearest a x.2 dist false)

/-- The columns of a row that substitution filled (R275, R301): a binned pair without a live slice counts both of its columns. -/
def filled (d : List (Option Int)) (binned : Bool) : List Nat :=
  ((d.zip (List.range d.length)).filter fun x => x.1.isNone && !(binned && decide (2 ≤ x.2 % 4))).flatMap fun x =>
    if binned then [x.2, x.2 + 2] else [x.2]

/-- Active row `a` of exposure `e` joins the rows in which its filled columns were substituted. -/
def noteFilled (t : List (Nat × (Nat × Nat))) (cols : List Nat) (a e : Nat) (binned : Bool) : List (Nat × (Nat × Nat)) :=
  cols.foldl (fun t c =>
    let k := 8 * c + 2 * e + b2n binned
    Sparse.insert t k (match Sparse.find t k with | some r => (r.1, a) | none => (a, a))) t

/-- One pixel of defect correction (R338, R339): the value, and whether it was corrected. -/
def defectPixel (d : Array Int) (live : Array Bool) (t : Int) (c : Nat) : Int × Bool :=
  let v := d.getD c 0
  if c < 2 ∨ 5373 < c ∨ !(live.getD c false) then (v, false)
  else
    let a := d.getD (c - 2) 0
    let z := d.getD (c + 2) 0
    if max a z + t < v ∨ v < min a z - t then ((a + z + 1) / 2, true) else (v, false)

/-- The codes of an active row of exposure `e` pass stages 2 to 4, and the row is held for the windows. -/
def State.pixelRow (s : State) (codes : List (Option Int)) (a e : Nat) (binned : Bool) : State :=
  let p := a + 40
  let d := (codes.zip (List.range codes.length)).map fun x =>
    x.1.map fun c => 16 * c - s.bl (x.2 / 224) e (phaseOf p x.2)
  let sub := substitute d binned
  let t : Int := (16 * s.lget PIPE_DEFECT_thr : Nat)
  let fixed :=
    if s.lon PIPE_CTRL_defect_en && !binned then
      (List.range sub.length).map (defectPixel sub.toArray (d.map Option.isSome).toArray t)
    else sub.map fun v => (v, false)
  (s.withPipe { s.pipe with
      rows := Sparse.insert s.pipe.rows (4 * a + e) (fixed.map (·.1))
      subst := noteFilled s.pipe.subst (filled d binned) a e binned
      defects := s.pipe.defects + (fixed.filter (·.2)).length })

/-! ### Path values -/

/-- The path value of a single exposure (R340). -/
def pathV (d : Int) (p : Nat) : Nat := (clampInt 0 4095 ((d + 8) / 16 + p)).toNat

/-- A candidate of the merge: d, black level and ratio of one exposure of a pixel. -/
structure Cand where
  d : Int
  bl : Int
  ratio : Nat
deriving DecidableEq, Repr

/-- The merged value (R342, R343): the first exposure not saturated. -/
def pathL (cs : List Cand) (sat p : Nat) : Nat :=
  match cs.find? fun c => !decide (((16 * sat : Nat) : Int) ≤ c.d + c.bl) with
  | none => 1048575
  | some c => (clampInt 0 1048575 ((c.d * c.ratio + 8192) / 16384 + p)).toNat

/-- The path value of the pixel at active row `a`, column `c`, for the exposures of a selection. -/
def State.pathValue (s : State) (f : Frame) (expSel a : Nat) (rows : List (Nat × Array Int)) (c : Nat) : Nat :=
  let p := s.lget PIPE_BLACK_pedestal
  if expSel < 4 then
    pathV ((((rows.find? fun r => r.1 == expSel).map (·.2)).getD #[]).getD c 0) p
  else
    pathL (rows.map fun r =>
      { d := r.2.getD c 0, bl := s.bl (c / 224) r.1 (phaseOf a c), ratio := nth f.ratios r.1 })
      (s.lget PIPE_MERGE_sat) p

/-- The held rows of the exposures that a selection uses, none while one is missing (R265, R344). -/
def State.rowsOf (s : State) (f : Frame) (expSel a : Nat) : Option (List (Nat × Array Int)) :=
  let es := if expSel < 4 then [expSel] else (List.range f.exps).filter fun e => !f.excluded.contains e
  es.mapM fun e => (Sparse.find s.pipe.rows (4 * a + e)).map fun r => (e, r.toArray)

/-- The values of output row `k` of a window before format conversion (R340 to R346), none while a row is missing. -/
def State.binnedRow (s : State) (f : Frame) (w : Win) (k : Nat) : Option (List Nat) :=
  match (w.inRows k).mapM fun a => (s.rowsOf f w.expSel a).map fun r => (a, r) with
  | none => none
  | some rows =>
    some ((List.range w.outW).map fun i =>
      let vs := rows.flatMap fun r => (w.inCols i).map (s.pathValue f w.expSel r.1 r.2)
      if w.bin = 2 then (vs.sum + 8) / 16 else vs.sum)

/-! ### Companding and formats -/

/-- A curve is valid (11, Companding). -/
def curveValid (k : List (Nat × Nat)) : Bool :=
  decide (k.length = 8) && ((k.zip k.tail).all fun p => decide (p.1.1 < p.2.1) && decide (p.1.2 ≤ p.2.2)) &&
    decide (1 ≤ (k.headD (0, 0)).1) && decide ((k.getLastD (0, 0)).1 < 1048575)

/-- The output of a curve (R347). -/
def curveAt (k : List (Nat × Nat)) (x : Nat) : Nat :=
  let pts := [(0, 0)] ++ k ++ [(1048575, 4095)]
  if 1048575 ≤ x then 4095
  else
    match (pts.zip pts.tail).find? fun p => decide (p.1.1 ≤ x) && decide (x < p.2.1) with
    | none => 0
    | some (a, z) => a.2 + ((x - a.1) * (z.2 - a.2) + (z.1 - a.1) / 2) / (z.1 - a.1)

/-- The output value of a format (R349) from a path value, `merge` telling L from v. -/
def State.formatValue (s : State) (w : Win) (v : Nat) : Nat :=
  let merge := w.expSel == 4
  let sh := min 4 (s.lget PIPE_FMT_raw16_shift)
  let curve := s.pipe.curves.getD w.curve []
  match w.format with
  | 1 => if merge then min 65535 ((v + 2 ^ sh / 2) / 2 ^ sh) else v * 16
  | 3 => curveAt curve v
  | 4 => curveAt curve (if merge then v else v * 256) / 4
  | _ => v

/-- Values packed LSB first at `b` bits each (R350). -/
def packBits (b : Nat) (vs : List Nat) : List Byte :=
  leBytes (vs.length * b / 8) (vs.foldr (fun v acc => v % 2 ^ b + 2 ^ b * acc) 0)

/-- The output values of row `k` of a window. -/
def State.outRow (s : State) (f : Frame) (w : Win) (k : Nat) : Option (List Nat) :=
  (s.binnedRow f w k).map fun vs => vs.map (s.formatValue w)

/-- The columns substituted within a crop, in a row and an exposure that the window takes (R275). -/
def State.substituted (s : State) (w : Win) : Nat :=
  ((List.range w.w).filter fun i =>
    (List.range 4).any fun e =>
      (w.expSel == 4 || w.expSel == e) &&
      match Sparse.find s.pipe.subst (8 * (w.x + i) + 2 * e + b2n (w.bin == 1)) with
      | some r => decide (r.1 < w.y + w.h) && decide (w.y ≤ r.2)
      | none => false).length

/-- The banks that a crop touches. -/
def Win.banks (w : Win) : List Nat :=
  (List.range 24).filter fun b => decide (w.x < 224 * (b + 1)) && decide (224 * b < w.x + w.w)

/-- The knees of the four curves come into force where they are valid, else the curve is kept (R348). -/
def State.curveBoundary (s : State) : State :=
  (List.range 4).foldl
    (fun s c =>
      let k := (List.range 8).map fun i =>
        let v := (s.shadowAt (aPIPE_CURVE_KNEE c i)).toNat
        (bits v 0 20, bits v 20 12)
      if curveValid k then
        let s1 := s.withPipe { s.pipe with curves := s.pipe.curves.set c k }
        s1.put PIPE_STATUS_curve_bad (setBits (s1.get PIPE_STATUS_curve_bad) c 1 0)
      else
        (s.put PIPE_STATUS_curve_bad (setBits (s.get PIPE_STATUS_curve_bad) c 1 1)).hwSet PIPE_IRQ_STAT_curve_bad) s

end Sys2Proof.Machine
end

