-- ==== Sys2Proof/Machine/Readout.lean ====
section
/-! DEFINITION. Column readout banks and live calibration: the chain (R280 to R282, R294, R295), codes (R305), the
calibration step (R306 to R316), residuals (R319, R320), the self-test (R289, R290), row means and bank events (R285 to
R287), retirement (R292 to R300). -/

namespace Sys2Proof.Machine

/-! ### Banks and slices -/

/-- Bank `b`. -/
def State.bank (s : State) (b : Nat) : Bank := s.rdo.banks.getD b {}

/-- Bank `b` replaced. -/
def State.setBank (s : State) (b : Nat) (k : Bank) : State :=
  s.withRdo { s.rdo with banks := s.rdo.banks.set b k }

/-- Slice `i` of a bank. -/
def Bank.slice (k : Bank) (i : Nat) : Slice := k.slices.getD i {}

/-- Slice `i` replaced. -/
def Bank.setSlice (k : Bank) (i : Nat) (c : Slice) : Bank := { k with slices := k.slices.set i c }

/-- The bank has retired a slice: no rest position, calibration frozen (R294). -/
def Bank.frozen (k : Bank) : Bool := k.first.isSome

/-- The effective weights w1 to w14 of slice `i` (R304). -/
def Bank.effective (k : Bank) (i : Nat) : List Int :=
  let c := k.slice i
  (List.range 14).map fun j =>
    (nth k.weights j : Int) + (if j = 0 then c.c1 else if j = 1 then c.c2 else 0)

/-- y of R305: the sum of the weights of the decisions that are 1; decision i is bit i - 1 of `d`. -/
def combine (ws : List Int) (d : Nat) : Int :=
  ((ws.zip (List.range 14)).map fun p => if bit d p.2 then p.1 else 0).sum

/-- The 12-bit code of y sixteenths of an LSB (R305). -/
def codeOf (y : Int) : Int := clampInt 0 4095 ((y + 8) / 16)

/-- The slice that serves local column `c` at rest position `r` (R281, R294, R295); none for a dead column. -/
def Bank.serving (k : Bank) (r c : Nat) : Option Nat :=
  match k.first with
  | none => some (if c < r then c else c + 1)
  | some f => if k.dead.contains c then none else some (if c < f then c else c + 1)

/-- The decisions that slice `i` of bank `b` presents. -/
def decOf (d : SlotData) (b i : Nat) : Nat := nth (d.decisions.getD b []) i % 2 ^ 14

/-- The code that slice `i` of bank `b` converts. -/
def State.sliceCode (s : State) (d : SlotData) (b i : Nat) : Int := codeOf (combine ((s.bank b).effective i) (decOf d b i))

/-- The shared rest position (R280). -/
def State.restPos (s : State) : Nat := s.get RDO_STATUS_rest_pos

/-- RDO_TEST_CFG gives the reference DAC to the test pattern in active row `a` (R35, R288). -/
def State.testRow (s : State) (a : Nat) : Bool :=
  s.lon RDO_TEST_CFG_en && decide (s.lget RDO_TEST_ROWS_first ≤ a) && decide (a ≤ s.lget RDO_TEST_ROWS_last)

/-- What a working slice converts: its column line, or in a row of the test pattern the bank reference DAC at
RDO_TEST_CFG.code (R288), which every window that takes the row carries. -/
def State.lineCode (s : State) (d : SlotData) (test : Bool) (b i : Nat) : Int :=
  if test then (s.lget RDO_TEST_CFG_code : Int) else s.sliceCode d b i

/-- The codes of bank `b`'s 224 local columns; in a row of the binned band the pair of R284 and R301 stands at its first
column and the other two columns of a group of four have none. -/
def State.bankCodes (s : State) (d : SlotData) (binned test : Bool) (b : Nat) : List (Option Int) :=
  let k := s.bank b
  let r := s.restPos
  let code c := (k.serving r c).map (s.lineCode d test b)
  (List.range 224).map fun c =>
    if !binned then code c
    else if 2 ≤ c % 4 then none
    else match code c with | some v => some v | none => code (c + 2)

/-- The codes of the 5 376 active columns of a row. -/
def State.rowCodes (s : State) (d : SlotData) (binned test : Bool) : List (Option Int) :=
  (List.range 24).flatMap (s.bankCodes d binned test)

/-! ### The calibration step -/

/-- The DAC level of step counter `k` (R306). -/
def calLevel (k : Nat) : Nat :=
  nth [0x800, 0x100, 0x5A0, 0xA60, 0x2D0, 0xD30, 0x7C0, 0x840, 0x800, 0xF00, 0x3F0, 0xC10, 0x1B0, 0xE50, 0x690, 0x970] k

/-- The step of slice `i` of a bank that decides `d` (R306 to R308, R312). -/
def Bank.step (k : Bank) (i d : Nat) (hold : Bool) : Change :=
  let n := (k.slice i).k
  let l := calLevel n
  let e := clampInt (-32768) 32767 (combine (k.effective i) d - 16 * (l : Int))
  let base : Change := { slice := i, err := e, applies := !hold }
  if l = 0x800 then { base with off := -((e + 2) / 4), offset := true }
  else if l = 0x100 then { base with gain := (e + 2) / 4, gains := true }
  else if l = 0xF00 then { base with gain := -((e + 2) / 4), gains := true }
  else
    { base with
      c1 := if bit d 0 then -((e + 8) / 16) else 0
      c2 := if bit d 1 then -((e + 8) / 16) else 0
      weights := (List.range 14).map fun j => if 2 ≤ j ∧ bit d j then -((e + 32) / 64) else 0 }

/-- The residual of the errors of a window (R319): 0xFF when there is none. -/
def residual (errs : List Int) : Nat :=
  if errs.isEmpty then 0xFF
  else min 254 (isqrt ((errs.map fun e => (e * e).toNat).sum / errs.length))

/-- The byte of slice `i` of bank `b` in the CAL_BANKb_SRES registers. -/
def sresField (b i : Nat) : Fld := { CAL_BANK_SRES_res b (i / 4) with lo := 8 * (i % 4), w := 8 }

/-- A saturated sum: the value, and whether it would have passed a limit and which. -/
def saturate (lo hi x : Int) : Int × Int := if x < lo then (lo, -1) else if hi < x then (hi, 1) else (x, 0)

/-- A trim takes a change (R309, R315): its new value, its hit mark, whether 0x69 is logged, whether the slice goes. A step
of the other trim is no change of this one; a step of its own is, also where it changes nothing. -/
def trimStep (own : Bool) (x hit d : Int) : Int × Int × Bool × Bool :=
  if !own then (x, hit, false, false)
  else
    let y := saturate (-64) 63 (x + d)
    if y.2 = 0 then (y.1, 0, false, false)
    else if y.2 = hit then (y.1, hit, false, true)
    else (y.1, y.2, true, false)

/-- A weight takes a change (R309, R316): its new value and whether its saturation begins. -/
def weightStep (lo hi x d : Int) : Int × Bool :=
  let y := saturate lo hi (x + d)
  (y.1, (decide (y.1 = lo) || decide (y.1 = hi)) && y.1 != x && d != 0)

/-- The word of a calibration report: bank, slice and item (R659). -/
def calWord (b i item : Nat) : Nat := b + 256 * i + 65536 * item

/-- Log 0x69 or 0x6B with its interrupt. -/
def State.calLimit (s : State) (b i item : Nat) : State := (s.report 0x69 9 [calWord b i item]).hwSet CAL_IRQ_STAT_trim_limit
def State.calSat (s : State) (b i item : Nat) : State := (s.report 0x6B 9 [calWord b i item]).hwSet CAL_IRQ_STAT_weight_sat

/-- CAL_IRQ_STAT.settled: every bank with a rest position, of which there is one, has settled. -/
def State.allSettled (s : State) : State :=
  let live := (List.range 24).filter fun i => !(s.bank i).frozen
  if !live.isEmpty && live.all (bit (s.get CAL_STATUS_settled)) then s.hwSet CAL_IRQ_STAT_settled else s

/-- Bank `b` has settled when its last slice has (R318); every bank with a rest position settled raises the interrupt. -/
def State.settle (s : State) (b : Nat) : State :=
  if bit (s.get CAL_STATUS_settled) b || !((s.bank b).slices.all (·.settled)) then s
  else
    (s.put CAL_STATUS_settled (setBits (s.get CAL_STATUS_settled) b 1 1)).allSettled

/-- A retirement decided for bank `b` of slice `i` takes effect at this boundary. -/
def State.decideRetire (s : State) (b i cause : Nat) : State :=
  s.withRdo { s.rdo with pending := s.rdo.pending ++ [{ bank := b, slice := i, cause := cause }] }

/-- The step that waits in bank `b` comes into force (R309, R313, R315, R316, R319), with no change while hold is 1, at the
step or now (R312). A trim that goes beyond the same limit again retires the slice at this boundary (R315), which freezes
the bank and discards the step (R322). -/
def State.applyChange (s : State) (b : Nat) : State :=
  match (s.bank b).pend with
  | none => s
  | some ch =>
    let k := { s.bank b with pend := none }
    let c := k.slice ch.slice
    let errs := (ch.err :: c.errs).take 16
    let act := ch.applies && !s.on CAL_CTRL_hold
    let o := trimStep (act && ch.offset) c.off c.offHit ch.off
    let g := trimStep (act && ch.gains) c.gain c.gainHit ch.gain
    let w1 := if act then weightStep (-128) 127 c.c1 ch.c1 else (c.c1, false)
    let w2 := if act then weightStep (-128) 127 c.c2 ch.c2 else (c.c2, false)
    let ws := if act ∧ !ch.weights.isEmpty then
        (k.weights.zip ch.weights).map fun p => weightStep 0 65535 p.1 p.2
      else k.weights.map fun (w : Nat) => ((w : Int), false)
    let c' := { c with
      off := o.1, offHit := o.2.1, gain := g.1, gainHit := g.2.1, c1 := w1.1, c2 := w2.1, errs := errs
      settled := c.settled || (act && ch.offset) }
    let k' := { k.setSlice ch.slice c' with weights := ws.map fun p => p.1.toNat }
    let s1 := (s.setBank b k').put (sresField b ch.slice) (residual errs)
    let s2 := if o.2.2.1 then s1.calLimit b ch.slice 0 else s1
    let s3 := if g.2.2.1 then s2.calLimit b ch.slice 1 else s2
    let s4 := if w1.2 then s3.calSat b ch.slice 3 else s3
    let s5 := if w2.2 then s4.calSat b ch.slice 4 else s4
    let s6 := ((ws.zip (List.range 14)).filter fun p => p.1.2).foldl (fun s p => s.calSat b ch.slice (3 + p.2)) s5
    if o.2.2.2 || g.2.2.2 then s.decideRetire b ch.slice 0x61 else s6.settle b

/-- The bank residual and the worst slice at a wrap of the rest position, and the alert (R320, R321). -/
def State.bankResidual (s : State) (b : Nat) : State :=
  let k := s.bank b
  if k.frozen then s
  else
    let live := (List.range 225).filter fun i => !(k.slice i).errs.isEmpty
    let errs := live.flatMap fun i => (k.slice i).errs
    let worst := live.foldl
      (fun (a : Nat × Nat) i => let r := residual (k.slice i).errs; if a.2 = 0xFF ∨ a.2 < r then (i, r) else a) (0xFF, 0xFF)
    let s1 := ((s.put (CAL_BANK_RES_rms b) (residual errs)).put (CAL_BANK_RES_worst_slice b) worst.1).put
      (CAL_BANK_RES_worst_res b) worst.2
    let s2 := s1.bump (CAL_BANK_AGE_cycles b)
    if !live.isEmpty && decide (s.get CAL_ALERT_level < worst.2) then
      (s2.hwSet CAL_ALERT_BANKS_banks (2 ^ b)).hwSet CAL_IRQ_STAT_alert
    else s2

/-! ### Retirement -/

/-- The word of a retirement report: bank, slice, dead local column or 0xFF (R296, R659). -/
def retireWord (b i dead : Nat) : Nat := b + 256 * i + 65536 * dead

/-- One retirement takes effect (R294 to R296, R322). -/
def State.retire (s : State) (r : Retirement) : State :=
  let k := s.bank r.bank
  if k.retired.contains r.slice then s
  else
    let b := r.bank
    let w := r.slice / 32
    let s1 := s.put (RDO_BANK_RET_retired b w) (setBits (s.get (RDO_BANK_RET_retired b w)) (r.slice % 32) 1 1)
    let s2 := (s1.put (RDO_BANK_STATE_in_service b) (s1.get (RDO_BANK_STATE_in_service b) - 1)).put (sresField b r.slice) 0xFF
    let s3 := s2.hwSet RDO_IRQ_STAT_retired
    let s4 := s3.withRdo { s3.rdo with recent := if s3.rdo.recent.contains b then s3.rdo.recent else b :: s3.rdo.recent }
    match k.first with
    | none =>
      let s5 := s4.setBank b { k with first := some r.slice, retired := [r.slice], pend := none }
      let s6 := (s5.put (RDO_BANK_STATE_first_retired b) r.slice).put (CAL_BANK_RES_frozen b) 1
      let s7 := s6.put RDO_FROZEN_banks (setBits (s6.get RDO_FROZEN_banks) b 1 1)
      let s8 := ((s7.bump RDO_STATUS_frozen_banks).hwSet RDO_IRQ_STAT_frozen).report r.cause 8 [retireWord b r.slice 0xFF]
      if bit (s.get CAL_STATUS_settled) b then s8 else s8.allSettled
    | some f =>
      let c := if r.slice < f then r.slice else r.slice - 1
      let s5 := s4.setBank b { k with retired := k.retired ++ [r.slice], dead := k.dead ++ [c] }
      let s6 := (s5.bump (RDO_BANK_STATE_dead b)).put RDO_DEGRADED_banks (setBits (s5.get RDO_DEGRADED_banks) b 1 1)
      let s7 := s6.put (RDO_BANK_DEAD_dead b (c / 32)) (setBits (s6.get (RDO_BANK_DEAD_dead b (c / 32))) (c % 32) 1 1)
      ((s7.hwSet RDO_IRQ_STAT_dead_column).report r.cause 8 [retireWord b r.slice c]).report 0x63 8 [retireWord b r.slice c]

/-- Retirements in ascending slice order (R300). -/
def retireOrder (rs : List Retirement) : List Retirement :=
  (List.range 225).flatMap fun i => rs.filter fun r => r.slice == i

/-- Every retirement decided takes effect at a slot boundary (R293, R300). -/
def State.retireAll (s : State) : State :=
  let rs := retireOrder s.rdo.pending
  (rs.foldl State.retire (s.withRdo { s.rdo with pending := [] })).put RDO_RETIRE_RESULT_pending 0

/-- Readouts run: the timing generator keeps its slot grid, also between two readouts and while it waits for a trigger
(R289, R293). -/
def State.slotsRun (s : State) : Bool := s.sht.running || s.sht.reading

/-- A write to RDO_RETIRE (R292, R293): decided now, in effect at the next slot boundary, or at once while no readout
runs. A slice whose retirement is decided counts as retired. -/
def State.hostRetire (s : State) (v : Word) : State :=
  let b := bits v.toNat 0 5
  let i := bits v.toNat 8 8
  if bits v.toNat 24 8 ≠ 0xD7 then s
  else if 23 < b ∨ 224 < i ∨ (s.bank b).retired.contains i ∨
      s.rdo.pending.any (fun r => r.bank == b && r.slice == i) then
    (s.put RDO_RETIRE_RESULT_cause 0x64).hwSet RDO_IRQ_STAT_retire_refused
  else
    let s1 := (s.put RDO_RETIRE_RESULT_cause 0x62).put RDO_RETIRE_RESULT_pending 1
    let s2 := s1.decideRetire b i 0x62
    if s.slotsRun then s2 else s2.retireAll

/-- RDO_RETIRE. -/
def execRdoRetire (value : Word) (s : State) : Host.Outcome State Fault Refusal := .next (s.hostRetire value)

/-! ### Snapshots -/

/-- The snapshot of the slice that CAL_SEL names (R314, CAL_SNAP registers). -/
def State.takeSnap (s : State) : State :=
  let b := s.get CAL_SEL_bank
  let i := s.get CAL_SEL_slice
  let s0 := s.withRdo { s.rdo with snapWaits := false }
  let done := (s0.put CAL_SNAP_STATUS_ready 1).hwSet CAL_IRQ_STAT_snapshot
  if 23 < b ∨ 224 < i then done.put CAL_SNAP_STATUS_cause 0x6A
  else
    let k := s.bank b
    let c := k.slice i
    let s1 := (((done.put CAL_SNAP_STATUS_cause 0).put CAL_SNAP_TRIM_off (ofSigned 8 c.off)).put CAL_SNAP_TRIM_gain
      (ofSigned 8 c.gain)).put CAL_SNAP_TRIM_c1 (ofSigned 8 c.c1)
    let s2 := (s1.put CAL_SNAP_TRIM_c2 (ofSigned 8 c.c2)).put CAL_SNAP_STEP_k c.k
    let lim := c.off == -64 || c.off == 63 || c.gain == -64 || c.gain == 63
    let s3 := ((s2.put CAL_SNAP_STEP_retired (b2n (k.retired.contains i))).put CAL_SNAP_STEP_at_limit (b2n lim)).put
      CAL_SNAP_STEP_residual (s.get (sresField b i))
    let s4 := s3.put CAL_SNAP_STEP_window c.errs.length
    let ws := k.effective i
    (List.range 7).foldl
      (fun s m => (s.put (CAL_SNAP_W_lo m) (ofSigned 16 (ws.getD (2 * m) 0))).put (CAL_SNAP_W_hi m)
        (ofSigned 16 (ws.getD (2 * m + 1) 0))) s4

/-- A write to CAL_SEL: the snapshot is taken at the next slot boundary, at once while no readout runs. -/
def State.calSel (s : State) (v : Word) : State :=
  let s1 := (s.plainWrite aCAL_SEL v).put CAL_SNAP_STATUS_ready 0
  if s.slotsRun then s1.withRdo { s1.rdo with snapWaits := true } else s1.takeSnap

/-- CAL_SNAPSHOT: a snapshot that waits is taken at the slot boundary. -/
def execCalSnapshot (s : State) : Host.Outcome State Fault Refusal := .next (if s.rdo.snapWaits then s.takeSnap else s)

/-! ### Row means and bank events -/

/-- The exposure of the row means in a frame (R285). -/
def State.meanExp (s : State) (f : Frame) : Nat :=
  let e := s.lget RDO_MEAN_CFG_exp
  if e < f.exps then e else 0

/-- The fraction f of a crossing of θ between two samples, in 256ths (R441), if the threshold lies between them. -/
def crossFraction (y0 y1 th : Nat) : Option Nat :=
  let num := if y0 < y1 then th - y0 else y0 - th
  let den := if y0 < y1 then y1 - y0 else y0 - y1
  let between := if y0 < y1 then decide (y0 ≤ th) && decide (th < y1) else decide (th ≤ y0) && decide (y1 < th)
  if between then some (256 * num / den) else none

/-- The stamp of a crossing between two samples and whether it is interpolated (R441, R442): without the earlier one, the
later stamp. Where the threshold was moved and does not lie between the samples, the spec states no fraction: it is a free
value from 0 to 255 (notes/assumptions/28.md). -/
def State.crossing (s : State) (prev : Option (Nat × Nat)) (y1 t1 th : Nat) : (Nat × Bool) × State :=
  match prev with
  | none => ((t1, false), s)
  | some (y0, t0) =>
    let v := match crossFraction y0 y1 th with
      | some f => (f, s)
      | none => (s.free.1 % 256, s.free.2)
    (((t0 + (t1 + 2 ^ 64 - t0) % 2 ^ 64 * v.1 / 256) % 2 ^ 64, true), v.2)

/-- A row mean of bank `b` for active row `a`: its register, the governor's metering, and the bank event. -/
def State.rowMean (s : State) (b a mean : Nat) : State :=
  let t1 := (s.stampBack (match s.sht.cur with | some f => f.rowPix | none => 0)).1
  let prev := Sparse.find s.rdo.means b
  let s1 := ((s.put (RDO_BANK_MEAN_mean b) mean).put (RDO_BANK_MEAN_row b) a).put (RDO_BANK_MEAN_valid b) 1
  let metered := bit (s.get SHT_GOV_BANKS_banks) b && decide (s.get SHT_GOV_METER_first ≤ a) &&
    decide (a ≤ s.get SHT_GOV_METER_last)
  let sh := s1.sht
  let s2 := (s1.withRdo { s1.rdo with means := Sparse.insert s1.rdo.means b (mean, t1) }).withSht (if metered then { sh with meterSum := sh.meterSum + mean, meterCount := sh.meterCount + 1 } else sh)
  let hi := s.get RDO_EVT_CFG_hi
  let lo := min (s.get RDO_EVT_CFG_lo) hi
  let was := bit (s.get RDO_EVT_LEVEL_level) b
  if hi < mean ∧ !was then
    let st := s2.crossing prev mean t1 hi
    (st.2.put RDO_EVT_LEVEL_level (setBits (st.2.get RDO_EVT_LEVEL_level) b 1 1)).setLevel b true st.1.1 st.1.2
  else if mean < lo ∧ was then
    let st := s2.crossing prev mean t1 lo
    (st.2.put RDO_EVT_LEVEL_level (setBits (st.2.get RDO_EVT_LEVEL_level) b 1 0)).setLevel b false st.1.1 st.1.2
  else s2

/-- The row means of every bank in a converting slot of active row `a` (R285): over the columns that were converted. -/
def State.rowMeans (s : State) (codes : List (Option Int)) (a : Nat) : State :=
  (List.range 24).foldl
    (fun s b =>
      let cs := ((codes.drop (224 * b)).take 224).filterMap id
      if cs.isEmpty then s.withRdo { s.rdo with means := Sparse.erase s.rdo.means b }
      else s.rowMean b a (cs.sum.toNat / cs.length)) s

/-! ### The hard self-test -/

/-- The level of a self-test slot (R289). -/
def testLevel (i : Nat) : Nat := nth [0x0C0, 0x5A5, 0xA5A, 0xF3F] i

/-- What slice `i` of bank `b` shows in a self-test slot is added to the set's findings. -/
def State.testSee (s : State) (d : SlotData) (b i : Nat) : TestSeen :=
  let dec := decOf d b i
  let dev := s.sliceCode d b i - (testLevel s.rdo.testLevel : Int)
  let bad := decide (48 < dev.natAbs)
  match Sparse.find s.rdo.testSeen (225 * b + i) with
  | none => { ors := dec, ands := dec, bad := bad }
  | some t => { ors := lor t.ors dec, ands := land t.ands dec, bad := t.bad || bad }

/-- The slice fails the set (R290): a stage took one value in all four conversions, or a code was too far off. -/
def TestSeen.fails (t : TestSeen) : Bool := t.bad || t.ors != 2 ^ 14 - 1 || t.ands != 0

/-- A test set is complete: a slice that fails is tested again, and retired when it fails the repeat (R290). -/
def State.testJudge (s : State) (b i : Nat) : State :=
  let k := s.bank b
  if k.retired.contains i then s
  else
    let c := k.slice i
    match Sparse.find s.rdo.testSeen (225 * b + i) with
    | none => s
    | some t =>
      if t.fails then
        let s1 := (s.setBank b (k.setSlice i { c with failed := !c.failed })).hwSet RDO_IRQ_STAT_selftest_fail
        if c.failed then
          s1.decideRetire b i 0x60
        else s1.countN 115 1
      else if c.failed then (s.setBank b (k.setSlice i { c with failed := false })).bump RDO_SELFTEST_first_fails
      else s

/-- Every (bank, slice). -/
def allSlices : List (Nat × Nat) := (List.range 24).flatMap fun b => (List.range 225).map fun i => (b, i)

/-- A self-test slot elapses (R289, R290); a set that overlaps an episode on VAA or VAD is discarded. -/
def State.testSlot (s : State) (d : SlotData) : State :=
  let lvl := s.rdo.testLevel
  let live := allSlices.filter fun p => !(s.bank p.1).retired.contains p.2
  let seen := live.map fun p => (225 * p.1 + p.2, s.testSee d p.1 p.2)
  let dirty := s.rdo.testDirty || s.sht.slotMarked || s.analogActive
  let s1 := s.withRdo { s.rdo with testSeen := seen, testDirty := dirty, testLevel := (lvl + 1) % 4 }
  if lvl < 3 then s1
  else
    let s2 := if dirty then s1 else live.foldl (fun s p => s.testJudge p.1 p.2) (s1.bumpWrap RDO_SELFTEST_sets)
    s2.withRdo { s2.rdo with testSeen := [], testDirty := false }

/-! ### The end of a converting slot -/

/-- The calibration of every bank with a rest position at the end of a converting slot: the waiting step comes into
force, then the resting slice's own step waits (R310, R311, R313, R314). A bank whose first
retirement takes effect at this boundary discards what waits (R322). `test` says that R35 gives the DAC to the test
pattern, `marked` that the slot is marked. -/
def State.calibrate (s : State) (d : SlotData) (test marked : Bool) : State :=
  let r := s.restPos
  (List.range 24).foldl
    (fun s b =>
      let k := s.bank b
      if k.frozen then s
      else
        let s1 := if s.rdo.pending.any (·.bank == b) then s.setBank b { k with pend := none } else s.applyChange b
        if test then (s1.bump CAL_COUNTS_skipped).countN 116 1
        else if marked then (s1.bump CAL_COUNTS_discarded).countN 117 1
        else
          let ch := k.step r (decOf d b r) (s.on CAL_CTRL_hold)
          let k1 := s1.bank b
          let c := k1.slice r
          s1.setBank b { k1.setSlice r { c with k := (c.k + 1) % 16 } with pend := some ch }) s

/-- The rest position advances at the end of a converting slot (R280); at its wrap the bank residuals are formed. -/
def State.advanceRest (s : State) : State :=
  let r := s.restPos
  let s1 := s.put RDO_STATUS_rest_pos (if r = 224 then 0 else r + 1)
  if r = 224 then (List.range 24).foldl State.bankResidual s1 else s1

end Sys2Proof.Machine
end

