-- ==== Sys2Proof/Machine/Windows.lean ====
section
/-! DEFINITION. The frames a window's ring sends: the decision at the first row, frame start, rows, frame end and
metadata (R489 to R492, R500 to R504). -/

namespace Sys2Proof.Machine

/-! ### Flags -/

/-- The flags of a window's frame that do not belong to its ring (R503, R504). -/
def State.windowFlags (s : State) (f : Frame) (w : Win) : Nat :=
  let clamped := f.clamped || (w.expSel == 4 && !f.excluded.isEmpty)
  b2n f.forced + b2n (s.substituted w != 0) * 2 ^ 2 + b2n (w.banks.any fun b => (s.bank b).frozen) * 2 ^ 3 +
  b2n f.brownout * 2 ^ 4 + b2n f.checkerLost * 2 ^ 7 + b2n clamped * 2 ^ 9 + b2n f.thermal * 2 ^ 10 +
  b2n s.minimal * 2 ^ 11 + b2n f.triggered * 2 ^ 13 + b2n (w.banks.any s.rdo.recent.contains) * 2 ^ 15

/-- The flags that the ring of a window adds to its frame: RECONFIG, DECIMATED_BEFORE, LANE_DEGRADED. -/
def WinFrame.flags (x : WinFrame) : Nat :=
  b2n (x.drops != 0) * 2 + b2n x.degraded * 2 ^ 5 + b2n x.recfg * 2 ^ 8

/-- pflags of a window's packets (R495): recfg, decim, and short where asked for. -/
def WinFrame.pflags (x : WinFrame) (short : Bool) : Nat := b2n x.recfg + 2 * b2n (x.drops != 0) + 8 * b2n short

/-! ### Window frames -/

/-- The frame part of window `i`. -/
def State.winFrame? (s : State) (i : Nat) : Option WinFrame := Sparse.find s.wins i

/-- The frame part of window `i` replaced. -/
def State.setWin (s : State) (i : Nat) (x : WinFrame) : State := s.withWins (Sparse.insert s.wins i x)

/-- The byte count of one frame of a window (R135). -/
def Win.frameBytes (w : Win) : Nat := w.outH * (w.rowBytes + 20) + 3 * 276

/-- Window `i` and its ring are both enabled for the frame (R492). -/
def State.sendsTo (s : State) (i : Nat) (w : Win) : Bool :=
  decide (2 ≤ w.ring) && bit (s.lget (WIN_ENABLE_en (i / 32))) (i % 32) && s.lon (RING_CTRL_en w.ring)

/-- A frame that an elastic ring drops (R490, R26). -/
def State.dropFrame (s : State) (n : Nat) : State :=
  let s1 := ((s.bump (RING_FRAMES_dropped n)).hwSet (RING_DROP_SRC_ring (n / 32)) (2 ^ (n % 32))).hwSet
    RING_IRQ_STAT_dropped
  let r := s1.ring n
  (s1.setRing n { r with dropsSince := satAdd 16 r.dropsSince 1 }).count 113

/-- A ring takes a frame of `bytes` bytes, unless it is elastic and has no room (R490). -/
def State.admits (s : State) (n bytes : Nat) : Bool := s.on (RING_CLASS_in_force n) || decide (bytes ≤ s.spoolFree n)

/-- An elastic ring reserves the bytes of the frame it takes. -/
def State.reserve (s : State) (n bytes : Nat) : State :=
  if s.on (RING_CLASS_in_force n) then s
  else
    let r := s.ring n
    (s.setRing n { r with reserved := r.reserved + bytes }).refill n

/-- A packet of a frame is built out of what was reserved for it (R487). -/
def State.buildReserved (s : State) (n type pflags frame index : Nat) (payload : List Byte) (held : Nat) : State :=
  let r := s.ring n
  let used := min held (payload.length + 20)
  (s.setRing n { r with reserved := r.reserved - used }).build n type pflags frame index payload

/-- The frame start payload (R500). -/
def State.frameStart (s : State) (i : Nat) (w : Win) (f : Frame) : List Byte :=
  leBytes 8 f.number ++ leBytes 8 f.stamp ++
  leBytes 4 (i % 2 ^ 10 + 2 ^ 10 * w.format + 2 ^ 13 * w.bin + 2 ^ 15 * w.expSel) ++
  leBytes 4 (w.outW + 2 ^ 16 * w.outH) ++ leBytes 4 (w.div + 2 ^ 8 * w.phase) ++ leBytes 4 (s.get CFG_ACTIVE_ID_id)

/-- The frame end payload (R501). -/
def frameEnd (rows discarded bytes stamp : Nat) : List Byte :=
  leBytes 4 (rows % 2 ^ 16 + 2 ^ 16 * discarded) ++ leBytes 4 bytes ++ leBytes 8 stamp

/-- The rows of a crop that a window's exposures converted during an episode (metadata word 17). -/
def Win.markedRows (w : Win) (f : Frame) : Nat :=
  ((f.marked.filter fun m => decide (w.y ≤ m.1) && decide (m.1 < w.y + w.h) &&
    (w.expSel == m.2 || w.expSel == 4)).map (·.1)).eraseDups.length

/-- The metadata payload of a window's frame, `link` being word 19 (R502). -/
def State.metadata (s : State) (i : Nat) (w : Win) (f : Frame) (x : WinFrame) : List Byte :=
  let frozen := maskOf (w.banks.filter fun b => (s.bank b).frozen)
  let words :=
    [s.windowFlags f w + x.flags,
     x.drops + 2 ^ 16 * f.marks + 2 ^ 20 * b2n f.synced + 2 ^ 24 * f.epoch,
     f.stamp % 2 ^ 32, f.stamp / 2 ^ 32, f.number % 2 ^ 32, f.number / 2 ^ 32,
     i % 2 ^ 10 + 2 ^ 10 * f.mode + 2 ^ 12 * f.exps + 2 ^ 16 * f.rowPix,
     f.gain + 2 ^ 4 * s.get SHT_CTRL_gov_mode] ++
    (List.range 4).map (nth f.eff) ++ (List.range 3).map (fun e => nth f.ratios (e + 1)) ++
    [s.get CFG_ACTIVE_ID_id, x.sent + 2 ^ 16 * x.discarded, s.substituted w + 2 ^ 16 * w.markedRows f, frozen, x.endWord,
     0, 0, x.endStamp % 2 ^ 32, x.endStamp / 2 ^ 32]
  wordBytes (words ++ List.replicate 40 0)

/-- Metadata word 19 for ring `n`: active lanes, rate code, guarantee in force, demoted (R502). -/
def State.linkWord (s : State) (n : Nat) : Nat :=
  popCount 8 (s.get LNK_STATUS_lanes) + 2 ^ 4 * s.get LNK_STATUS_rate + 2 ^ 6 * s.get (RING_CLASS_in_force n) +
  2 ^ 7 * s.get (RING_CLASS_demoted n)

/-- The stamp at which the readout in progress ends, from the slots still to come. -/
def State.endStamp (s : State) : Nat :=
  match s.sht.cur with
  | some f => s.stampAfter ((f.slots - s.sht.slot) * f.rowPix * s.pixPeriod)
  | none => s.now

/-- The first row of a frame reaches the window's ring: the decision of R490 and R492, and the frame start. -/
def State.openFrame (s : State) (i : Nat) (w : Win) (f : Frame) : State :=
  let x : WinFrame := { number := f.number }
  if !s.sendsTo i w then s.setWin i x
  else
    let s0 := s.restoreDue w.ring
    if !s0.admits w.ring w.frameBytes then (s0.dropFrame w.ring).setWin i x
    else
    let s1 := s0.reserve w.ring w.frameBytes
    let r := s1.ring w.ring
    let y := { x with
      sends := true, recfg := r.recfg, drops := r.dropsSince, reserved := if s0.on (RING_CLASS_in_force w.ring) then 0 else w.frameBytes }
    let s2 := s1.setRing w.ring { r with recfg := false, dropsSince := 0 }
    (s2.buildReserved w.ring 1 (y.pflags false) f.number 0 (s.frameStart i w f) y.reserved).setWin i
      { y with reserved := y.reserved - 52 }

/-- The frame end of a window's frame (R489, R501): its rows are all built or discarded. A frame whose ring is demoted
here carries LANE_DEGRADED (R560). -/
def State.closeRows (s : State) (w : Win) (x : WinFrame) : State × WinFrame :=
  let y := { x with
    endWord := s.linkWord w.ring, endStamp := s.endStamp, closed := true
    degraded := x.degraded || s.on (RING_CLASS_demoted w.ring) }
  ((s.buildReserved w.ring 3 (y.pflags y.cut) y.number 0 (frameEnd y.sent y.discarded y.bytes y.endStamp)
    y.reserved).bumpWrap (RING_FRAMES_sent w.ring), { y with reserved := y.reserved - 36 })

/-- One output row of a window reaches its ring (R489): sent, or discarded where a demotion left no room (R560, R40). -/
def State.ringRow (s : State) (i : Nat) (w : Win) (k : Nat) (f : Frame) (payload : List Byte) : State :=
  let s1 := if k = 0 then s.openFrame i w f else s
  match s1.winFrame? i with
  | none => s1
  | some x =>
    if !x.sends then s1.setWin i { x with next := k + 1 }
    else
      let p :=
        if x.tight ∧ s1.spoolFree w.ring < payload.length + 20 then
          (s1, { x with next := k + 1, discarded := x.discarded + 1, cut := true, degraded := true })
        else
          (s1.buildReserved w.ring 2 (x.pflags false) f.number k payload x.reserved,
            { x with next := k + 1, sent := x.sent + 1, bytes := x.bytes + payload.length,
                     reserved := x.reserved - (payload.length + 20) })
      let q := if k + 1 = w.outH then p.1.closeRows w p.2 else p
      q.1.setWin i q.2

/-- The metadata of a window's frame, directly after its frame end (R489); what was still reserved is released. -/
def State.sendMetadata (s : State) (i : Nat) (w : Win) (f : Frame) : State :=
  match s.winFrame? i with
  | none => s
  | some x =>
    if x.sends && x.closed && x.number == f.number then
      let s1 := s.buildReserved w.ring 4 (x.pflags x.cut) f.number 0 (s.metadata i w f x) x.reserved
      let r := s1.ring w.ring
      (s1.setRing w.ring { r with reserved := r.reserved - (x.reserved - 276) }).refill w.ring
    else s

/-- A frame cut short by a loss of SYNA lock: its unsent rows are discarded, frame end and metadata follow in the manner
of R40, without LANE_DEGRADED (03, SYNA loses lock). -/
def State.cutFrame (s : State) (i : Nat) (w : Win) (f : Frame) : State :=
  match s.winFrame? i with
  | none => s
  | some x =>
    if x.sends && !x.closed && x.number == f.number then
      let y := { x with discarded := x.discarded + (w.outH - x.next), cut := true }
      let q := s.closeRows w y
      (q.1.setWin i q.2).sendMetadata i w f
    else s

end Sys2Proof.Machine
end

