-- ==== Sys2Proof/Machine/ArcadeOps.lean ====
section
/-! DEFINITION. The Arcade: regions, writers, freeze and re-arm, replay, host fetch and scrubbing (R454 to R479). -/

namespace Sys2Proof.Machine

/-! ### Regions -/

/-- A region record (R460). -/
structure RegionDef where
  writer : Nat
  ring : Nat
  flags : Nat
  base : Nat
  length : Nat
  pre : Nat
  post : Nat
  slotBytes : Nat
deriving DecidableEq, Repr

/-- The record at offset 16 + 32 `r` of an ARCADE body. -/
def regionOf (b : List Byte) (r : Nat) : RegionDef :=
  let o := 16 + 32 * r
  { writer := leAt b o 1, ring := leAt b (o + 1) 1, flags := leAt b (o + 2) 1, base := leAt b (o + 4) 4
    length := leAt b (o + 8) 4, pre := leAt b (o + 12) 2, post := leAt b (o + 14) 2, slotBytes := leAt b (o + 16) 4 }

/-- Region `r` of the structure in force, if it exists. -/
def State.regionDef? (s : State) (r : Nat) : Option RegionDef :=
  let b := s.body 0x0A 0
  if r < leAt b 0 1 ∧ r < 16 then some (regionOf b r) else none

/-- The regions in force with their records. -/
def State.regionDefs (s : State) : List (Nat × RegionDef) :=
  (List.range 16).filterMap fun r => (s.regionDef? r).map fun d => (r, d)

/-- Region `r` beyond its registers. -/
def State.region (s : State) (r : Nat) : Region := Sparse.get {} s.arc.regions r

/-- Region `r` replaced. -/
def State.setRegion (s : State) (r : Nat) (g : Region) : State :=
  s.withArc { s.arc with regions := Sparse.put {} s.arc.regions r g }

/-- P + 1 + Q. -/
def RegionDef.slots (d : RegionDef) : Nat := d.pre + 1 + d.post

/-- The Arcade address of slot `i`. -/
def RegionDef.slotAt (d : RegionDef) (i : Nat) : Nat := d.base + i * d.slotBytes

/-- ARC_REGr_STATE.state: 0 IDLE, 1 RECORDING, 2 POST, 3 FROZEN. -/
def State.regionState (s : State) (r : Nat) : Nat := s.get (ARC_REG_STATE_state r)

/-- The share entry of a ring (`kind` 0) or a writer (`kind` 1): class and shares (R112). -/
def shareEntry (b : List Byte) (kind n : Nat) : Option (Bool × Nat) :=
  let rings := leAt b 2 2
  let writers := leAt b 4 2
  let o := if kind = 0 then 8 else 8 + 4 * rings
  ((List.range (if kind = 0 then rings else writers)).map fun k => leAt b (o + 4 * k) 4).findSome? fun e =>
    if bits e 0 (if kind = 0 then 8 else 6) = n then some (bit e 8, bits e 16 8) else none

/-- Writer `w` is guaranteed. -/
def State.writerGuaranteed (s : State) (w : Nat) : Bool :=
  match shareEntry (s.body 5 0) 1 w with | some e => e.1 | none => false

/-- The window that feeds writer `w`. -/
def State.writerWindow? (s : State) (w : Nat) : Option (Nat × Win) :=
  s.windows.findSome? fun i =>
    match s.window? i with
    | some x => if x.writerOn && x.writer == w then some (i, x) else none
    | none => none

/-! ### Memory -/

/-- Bytes are written into the Arcade; a word written whole loses its stored error. -/
def State.arcWrite (s : State) (a : Nat) (bs : List Byte) : State :=
  (s.withArcadeMem (cellsWrite s.arcadeMem a bs)).withArc { s.arc with
    badWords := s.arc.badWords.filter fun l => !(decide (a ≤ l) && decide (l + 8 ≤ a + bs.length))
    scrub := s.arc.scrub.written a bs.length }

/-- Bytes of the Arcade. -/
def State.arcRead (s : State) (a n : Nat) : List Byte := cellsSlice n s.arcadeMem a

/-- An uncorrectable Arcade error is found (R478). -/
def State.arcBad (s : State) : State :=
  (((s.bump ARC_ECC_uncorrectable).hwSet ARC_IRQ_STAT_ecc).count 107).setFault (2 ^ 19)

/-- The words with an uncorrectable error that `n` bytes from address `a` touch. -/
def State.badIn (s : State) (a n : Nat) : List Nat := s.arc.badWords.filter fun l => decide (l < a + n) && decide (a < l + 8)

/-- A read finds `errorBits` bits in error in the word at `a` (R478): one is corrected and counted; more leave the word as
found, which reads as the specification does not state (a free value), until it is written. -/
def State.wordFound (s : State) (a errorBits : Nat) : State :=
  if errorBits = 0 ∨ s.arc.badWords.contains a then s
  else if errorBits = 1 then (s.bump ARC_SCRUB_corrected).count 106
  else
    let v := s.free
    (v.2.withArcadeMem (cellsWrite v.2.arcadeMem a (leBytes 8 v.1))).withArc { v.2.arc with badWords := a :: v.2.arc.badWords }

/-- The errors that a read of `n` bytes from address `a` finds, out of a list of words with their bits in error. -/
def State.readErrors (s : State) (a n : Nat) (found : List (Nat × Nat)) : State :=
  (found.filter fun e => e.1 % 8 == 0 && decide (e.1 < a + n) && decide (a < e.1 + 8)).foldl (fun t e => t.wordFound e.1 e.2) s

/-! ### Slot headers -/

/-- The slot header (R462). -/
structure Slot where
  state : Nat
  generation : Nat
  rows : Nat
  bytes : Nat
  number : Nat
  stamp : Nat
  flags : Nat
  epoch : Nat
  synced : Nat
  before : Nat
  marks : Nat
deriving DecidableEq, Repr

/-- The 64 bytes of a slot header. -/
def Slot.encode (h : Slot) : List Byte :=
  leBytes 1 h.state ++ leBytes 1 h.generation ++ leBytes 2 h.rows ++ leBytes 4 h.bytes ++ leBytes 8 h.number ++
  leBytes 8 h.stamp ++ leBytes 4 h.flags ++ leBytes 1 h.epoch ++ leBytes 1 h.synced ++ leBytes 2 h.before ++
  leBytes 1 h.marks ++ leBytes 31 0

/-- The header that 64 bytes hold. -/
def slotOf (b : List Byte) : Slot :=
  { state := leAt b 0 1, generation := leAt b 1 1, rows := leAt b 2 2, bytes := leAt b 4 4, number := leAt b 8 8
    stamp := leAt b 16 8, flags := leAt b 24 4, epoch := leAt b 28 1, synced := leAt b 29 1 % 2, before := leAt b 30 2
    marks := leAt b 32 1 % 16 }

/-- The header of slot `i` of a region. -/
def State.slot (s : State) (d : RegionDef) (i : Nat) : Slot := slotOf (s.arcRead (d.slotAt i) 64)

/-- The complete slots of region `r` (R463): state 2 and the region's generation. -/
def State.completeSlots (s : State) (r : Nat) (d : RegionDef) : List (Nat × Slot) :=
  ((List.range d.slots).map fun i => (i, s.slot d i)).filter fun x =>
    x.2.state == 2 && x.2.generation == s.get (ARC_REG_STATE_generation r)

/-- The device frame number of the trigger frame. -/
def State.trigFrame (s : State) (r : Nat) : Nat := s.get64 (aARC_REG_TRIG_FRAME_LO r) (aARC_REG_TRIG_FRAME_HI r)

/-- ARC_REGr_HELD follows the slots once a trigger frame is named (R467). -/
def State.showHeld (s : State) (r : Nat) (d : RegionDef) : State :=
  let t := s.trigFrame r
  let c := s.completeSlots r d
  if s.regionState r < 2 ∨ (s.region r).trigNext then s
  else
    (s.put (ARC_REG_HELD_pre r) (c.filter fun x => decide (x.2.number < t)).length).put (ARC_REG_HELD_post r)
      (c.filter fun x => decide (t ≤ x.2.number)).length

/-! ### Recording -/

/-- The intake buffer of a writer holds 64 KiB (R458). -/
def intakeSize : Nat := 65536

/-- The rows that wait in the intake buffer of writer `w`. -/
def State.intake (s : State) (w : Nat) : List Intake := Sparse.get [] s.arc.intake w

/-- Those rows replaced. -/
def State.setIntake (s : State) (w : Nat) (q : List Intake) : State :=
  s.withArc { s.arc with intake := Sparse.put [] s.arc.intake w q }

/-- The bytes that wait in an intake buffer. -/
def intakeBytes (q : List Intake) : Nat := (q.map fun x => x.bytes.length).sum

/-- The first `n` bytes of an intake buffer with their places, and what is left. -/
def drained : Nat → List Intake → List (Nat × List Byte) × List Intake
  | _, [] => ([], [])
  | n, x :: q =>
    if n = 0 then ([], x :: q)
    else if x.bytes.length ≤ n then
      let r := drained (n - x.bytes.length) q
      ((x.addr, x.bytes) :: r.1, r.2)
    else ([(x.addr, x.bytes.take n)], { x with addr := x.addr + n, bytes := x.bytes.drop n } :: q)

/-- `n` bytes of writer `w` are stored. -/
def State.drain (s : State) (w n : Nat) : State :=
  let r := drained n (s.intake w)
  (r.1.foldl (fun t b => t.arcWrite b.1 b.2) s).setIntake w r.2

/-- A frame of POST has been stored or abandoned (R467). -/
def State.postStep (s : State) (r : Nat) (d : RegionDef) : State :=
  if s.regionState r ≠ 2 ∨ (s.region r).trigNext then s
  else
    let g := s.region r
    let s1 := s.setRegion r { g with postLeft := g.postLeft - 1 }
    let s2 := if g.postLeft ≤ 1 then (s1.put (ARC_REG_STATE_state r) 3).hwSet ARC_IRQ_STAT_frozen else s1
    s2.showHeld r d

/-- The header of the frame being stored. -/
def State.storingHeader (s : State) (r state flags marks : Nat) (x : Storing) : Slot :=
  { state := state, generation := s.get (ARC_REG_STATE_generation r), rows := x.rows, bytes := x.bytes
    number := x.number, stamp := x.stamp, flags := setBits flags 1 1 (b2n (bit flags 1 || x.before != 0))
    epoch := x.epoch, synced := b2n x.synced, before := x.before, marks := marks }

/-- The frame being stored is abandoned (R458, R459, R463). -/
def State.abandon (s : State) (r : Nat) (d : RegionDef) (x : Storing) : State :=
  let s0 := s.setIntake d.writer ((s.intake d.writer).filter fun y => y.frame != x.number)
  let s1 := s0.arcWrite (d.slotAt x.slot) (s0.storingHeader r 3 0 0 x).encode
  let g := s1.region r
  let s2 := s1.setRegion r { g with storing := none, abandoned := satAdd 16 g.abandoned 1 }
  let s3 := ((s2.bump (ARC_REG_DROPS_abandoned r)).hwSet ARC_IRQ_STAT_abandoned).report 0xD5 14 [d.writer]
  s3.postStep r d

/-- A frame whose rows stopped arriving counts as abandoned for the next one stored (15, At the edges). -/
def State.leaveUnfinished (s : State) (r : Nat) (d : RegionDef) : State :=
  let g := s.region r
  match g.storing with
  | none => s
  | some _ =>
    ((s.setRegion r { g with storing := none, abandoned := satAdd 16 g.abandoned 1 }).bump
      (ARC_REG_DROPS_abandoned r)).postStep r d

/-- The flags and marks that the frame being stored carries: those of its readout end once it has ended (R462). -/
def State.storeFlags (s : State) (d : RegionDef) (x : Storing) : Nat × Nat :=
  match x.flags with
  | some p => p
  | none =>
    match s.writerWindow? d.writer, s.sht.cur with
    | some (i, w), some f =>
      (s.windowFlags (s.gather f) w + (match s.winFrame? i with | some y => if y.sends then y.flags else 0 | none => 0), f.marks)
    | _, _ => (0, 0)

/-- The last write of a frame: what still waits in the intake buffer, then the header with state 2 (R463, R467). -/
def State.finishStore (s : State) (r : Nat) (d : RegionDef) (x : Storing) : State :=
  let fm := s.storeFlags d x
  let s0 := s.drain d.writer (intakeBytes (s.intake d.writer))
  let s1 := s0.arcWrite (d.slotAt x.slot) (s0.storingHeader r 2 fm.1 fm.2 x).encode
  let g := s1.region r
  (s1.setRegion r { g with storing := none, stored := g.stored + 1, abandoned := 0 }).postStep r d

/-- The next frame begins: one whose last row has come is stored, one whose rows stopped arriving is not. -/
def State.endEarlier (s : State) (r : Nat) (d : RegionDef) : State :=
  match (s.region r).storing with
  | some x => if x.whole then s.finishStore r d x else s.leaveUnfinished r d
  | none => s

/-- The writer begins a frame: the first header, and the trigger frame where a freeze waits for it (R463, R466). -/
def State.beginStore (s : State) (r : Nat) (d : RegionDef) (f : Frame) : State :=
  let s0 := s.endEarlier r d
  if s0.regionState r ≠ 1 ∧ s0.regionState r ≠ 2 then s0
  else
    let g := s0.region r
    let x : Storing :=
      { slot := g.stored % d.slots, number := f.number, stamp := f.stamp, epoch := f.epoch, synced := f.synced
        before := g.abandoned }
    let s1 := if g.trigNext then s0.put64 (aARC_REG_TRIG_FRAME_LO r) (aARC_REG_TRIG_FRAME_HI r) f.number else s0
    let s2 := s1.arcWrite (d.slotAt x.slot) (s0.storingHeader r 1 0 0 x).encode
    s2.setRegion r { g with storing := some x, trigNext := false, ids := Sparse.insert g.ids x.slot (s.get CFG_ACTIVE_ID_id) }

/-- Output row `k` of a window reaches its writer: its intake buffer, or the frame is abandoned where an elastic writer has
no room for it (R457, R458). -/
def State.writerRow (s : State) (w : Win) (k : Nat) (f : Frame) (payload : List Byte) : State :=
  if !w.writerOn then s
  else
    match s.regionDefs.find? fun x => x.2.writer == w.writer with
    | none => s
    | some (r, d) =>
      let s1 := if k = 0 then s.beginStore r d f else s
      match (s1.region r).storing with
      | none => s1
      | some x =>
        if x.number ≠ f.number then s1
        else if !s.writerGuaranteed w.writer && decide (intakeSize < intakeBytes (s1.intake w.writer) + payload.length) then
          s1.abandon r d x
        else
          let y := { x with rows := x.rows + 1, bytes := x.bytes + payload.length, whole := decide (k + 1 = w.outH) }
          let row : Intake := { frame := f.number, addr := d.slotAt x.slot + 64 + x.bytes, bytes := payload }
          (s1.setIntake w.writer (s1.intake w.writer ++ [row])).setRegion r { s1.region r with storing := some y }

/-- The flags and marks of a frame that ends are kept for the writers that still store it. -/
def State.keepStoreFlags (s : State) (f : Frame) : State :=
  s.regionDefs.foldl
    (fun s e =>
      match (s.region e.1).storing with
      | some x =>
        if x.number = f.number ∧ x.flags.isNone then
          s.setRegion e.1 { s.region e.1 with storing := some { x with flags := some (s.storeFlags e.2 x) } }
        else s
      | none => s) s

/-- ARC_FRAME_COMPLETE: after the last row the writer writes the header with state 2 (R463, R467). -/
def execArcFrameComplete (region : Nat) (s : State) : Host.Outcome State Fault Refusal :=
  .next (match s.regionDef? region, (s.region region).storing with
  | some d, some x =>
    if x.whole then s.finishStore region d x else s
  | _, _ => s)

/-! ### Freeze and re-arm -/

/-- A freeze reaches region `r` with stamp `st`; true when it is taken (R466). A re-arm that reaches the region in the same
cycle comes after it (R468). -/
def State.freeze (s0 : State) (r st : Nat) (d : RegionDef) : State × Bool :=
  let s := s0.withArc { s0.arc with frozenNow := r :: s0.arc.frozenNow }
  if s.regionState r ≠ 1 then (s.bump (ARC_REG_COUNTS_freeze_ignored r), false)
  else
    let g := s.region r
    let s1 := ((s.put (ARC_REG_STATE_state r) 2).put64 (aARC_REG_TRIG_STAMP_LO r) (aARC_REG_TRIG_STAMP_HI r) st).hwSet
      ARC_IRQ_STAT_triggered
    let s2 := match g.storing with
      | some x => s1.put64 (aARC_REG_TRIG_FRAME_LO r) (aARC_REG_TRIG_FRAME_HI r) x.number
      | none => s1
    ((s2.setRegion r { g with trigNext := g.storing.isNone, postLeft := d.post + 1 }).showHeld r d, true)

/-- A later command of this cycle freezes region `r`. -/
def State.freezeFollows (s : State) (r : Nat) : Bool :=
  s.restOfCycle.any fun c =>
    match c with
    | .arcFreeze q => q == r
    | .registerWrite _ a v => a == aARC_CMD && bits v.toNat 4 4 == 2 && v.toNat % 16 == r
    | _ => false

/-- A re-arm reaches region `r`; true when it is taken (R465). One that meets a freeze of the same cycle is ignored (R468).
The count of abandoned frames goes on to the next frame stored (R459). -/
def State.rearm (s : State) (r : Nat) : State × Bool :=
  if s.arc.frozenNow.contains r || s.freezeFollows r then (s.bump (ARC_REG_COUNTS_rearm_ignored r), false)
  else if (s.region r).pass.isSome then (s, false)
  else
    let s1 := (s.put (ARC_REG_STATE_generation r) (s.get (ARC_REG_STATE_generation r) + 1)).put (ARC_REG_STATE_state r) 1
    let s2 := (s1.setReg (aARC_REG_HELD r) 0).put (ARC_REG_DROPS_abandoned r) 0
    (s2.setRegion r { abandoned := (s.region r).abandoned }, true)

/-- Task 2 is served: every region with flags bit 0 freezes (R466). -/
def State.freezeTask (s : State) : State :=
  s.serve 2 fun s st _ => (s.regionDefs.filter fun e => bit e.2.flags 0).foldl (fun s e => (s.freeze e.1 st e.2).1) s

/-- Task 3 is served: every region with flags bit 1 re-arms (R465). -/
def State.rearmTask (s : State) : State :=
  s.serve 3 fun s _ _ => (s.regionDefs.filter fun e => bit e.2.flags 1).foldl (fun s e => (s.rearm e.1).1) s

/-- A task request that reaches MEM in this cycle is applied before a command (R468): the freeze always, the re-arm unless
the command is itself a freeze. -/
def State.arcTasksFirst (s : State) (freezes : Bool) : State :=
  let s1 := if s.restOfCycle.contains .freezeTheArcade then s.freezeTask else s
  if !freezes && s.restOfCycle.contains .rearmTheArcadeRecorder then s1.rearmTask else s1

/-- FREEZE_THE_ARCADE: task 2, for every region with flags bit 0 (R466). -/
def execFreezeTheArcade (s : State) : Host.Outcome State Fault Refusal := .next s.freezeTask

/-- REARM_THE_ARCADE_RECORDER: task 3, for every region with flags bit 1 (R465); a freeze of the same cycle comes first
(R468). -/
def execRearmTheArcadeRecorder (s : State) : Host.Outcome State Fault Refusal := .next (s.arcTasksFirst true).rearmTask

/-! ### Commands -/

/-- A command ends with its cause in ARC_CMD_RESULT; a refused one raises cmd_refused. -/
def State.arcResult (s : State) (cause : Nat) : State :=
  let s1 := s.put ARC_CMD_RESULT_cause cause
  if cause = 0 then s1 else s1.hwSet ARC_IRQ_STAT_cmd_refused

/-- ARC_CMD op 1 (R465). -/
def State.cmdRearm (s : State) (r : Nat) : State :=
  match s.regionDef? r with
  | none => s.arcResult 0xD0
  | some _ => let x := s.rearm r; x.1.arcResult (if x.2 then 0 else 0xD3)

/-- ARC_CMD op 2 (R466). -/
def State.cmdFreeze (s : State) (r : Nat) : State :=
  match s.regionDef? r with
  | none => s.arcResult 0xD0
  | some d => let x := s.freeze r s.now d; x.1.arcResult (if x.2 then 0 else 0xD1)

/-- The offset of a stored frame from the trigger frame, in sampled frames (15, Replay). -/
def State.slotOffset (s : State) (r : Nat) (d : RegionDef) (n : Nat) : Int :=
  let div := match s.writerWindow? d.writer with | some (_, w) => max 1 w.div | none => 1
  ((n : Int) - (s.trigFrame r : Int)) / (div : Int)

/-- The slots that ARC_REPLAY_RANGE selects, in ascending frame number (R469, R470). -/
def State.rangeSlots (s : State) (r : Nat) (d : RegionDef) : List Nat :=
  let first := max (toSigned 16 (s.get ARC_REPLAY_RANGE_first)) (-(d.pre : Int))
  let count := s.get ARC_REPLAY_RANGE_count
  let last := if count = 0 then (d.post : Int)
    else min (d.post : Int) (toSigned 16 (s.get ARC_REPLAY_RANGE_first) + count - 1)
  let sel := (s.completeSlots r d).filter fun x =>
    decide (first ≤ s.slotOffset r d x.2.number) && decide (s.slotOffset r d x.2.number ≤ last)
  ((sel.foldl (fun t x => Sparse.insert t x.2.number x.1) ([] : List (Nat × Nat)))).map (·.2)

/-- ARC_STATUS.pass_running and ARC_REGr_STATE.passing follow the passes. -/
def State.showPasses (s : State) (r : Nat) : State :=
  (s.put (ARC_REG_STATE_passing r) (b2n (s.region r).pass.isSome)).put ARC_STATUS_pass_running
    (b2n (s.arc.regions.any fun e => e.2.pass.isSome))

/-- ARC_CMD op 3 (R469). -/
def State.cmdReplay (s : State) (r : Nat) : State :=
  match s.regionDef? r with
  | none => s.arcResult 0xD0
  | some d =>
    if s.regionState r ≠ 3 then s.arcResult 0xD1
    else if (s.rangeSlots r d).isEmpty then s.arcResult 0xD2
    else if s.regionDefs.any fun e => e.1 != r && e.2.ring == d.ring && (s.region e.1).pass.isSome then s.arcResult 0xD4
    else
      (((s.bumpWrap (ARC_REG_STATE_pass r)).setRegion r { s.region r with pass := some (s.rangeSlots r d) }).showPasses
        r).arcResult 0

/-- The pass of region `r` ends (R474). -/
def State.endPass (s : State) (r : Nat) : State :=
  ((s.setRegion r { s.region r with pass := none, sending := none, ending := false }).showPasses r).hwSet
    ARC_IRQ_STAT_replay_done

/-- ARC_CMD op 4 (R474): the pass ends at once between frames, and else after the frame in progress. -/
def State.cmdEndPass (s : State) (r : Nat) : State :=
  match s.regionDef? r with
  | none => s.arcResult 0xD0
  | some _ =>
    if (s.region r).pass.isNone then s.arcResult 0xD1
    else if (s.region r).sending.isSome then (s.setRegion r { s.region r with ending := true }).arcResult 0
    else ((s.endPass r).report 0xD7 14 [r]).arcResult 0

/-- A write of ARC_CMD: op 0 has no effect, 5 to 15 return 0xD9. -/
def State.arcCmd (s : State) (op r : Nat) : State :=
  match op with
  | 0 => s
  | 1 => (s.arcTasksFirst false).cmdRearm r
  | 2 => (s.arcTasksFirst true).cmdFreeze r
  | 3 => (s.arcTasksFirst false).cmdReplay r
  | 4 => (s.arcTasksFirst false).cmdEndPass r
  | _ => s.arcResult 0xD9

/-- ARC_REARM. -/
def execArcRearm (region : Nat) (s : State) : Host.Outcome State Fault Refusal := .next (s.arcCmd 1 region)

/-- ARC_FREEZE. -/
def execArcFreeze (region : Nat) (s : State) : Host.Outcome State Fault Refusal := .next (s.arcCmd 2 region)

/-- ARC_REPLAY. -/
def execArcReplay (region : Nat) (s : State) : Host.Outcome State Fault Refusal := .next (s.arcCmd 3 region)

/-- ARC_END_PASS. -/
def execArcEndPass (region : Nat) (s : State) : Host.Outcome State Fault Refusal := .next (s.arcCmd 4 region)

/-- ARC_CMD_RESERVED_OP: op values 5 to 15 (15, Registers). -/
def execArcCmdReservedOp (op region : Nat) (s : State) : Host.Outcome State Fault Refusal :=
  .next (if 5 ≤ op then s.arcCmd op region else s)

/-! ### Replay -/

/-- The bytes of a replayed frame (R488, R490). -/
def replayBytes (h : Slot) : Nat := h.rows * (h.bytes / h.rows + 28) + 3 * 276

/-- The metadata payload of a replayed frame (R472, R502). -/
def replayMeta (h : Slot) (flags pass region offset : Nat) : List Byte :=
  wordBytes ([flags, h.before + 2 ^ 16 * h.marks + 2 ^ 20 * h.synced + 2 ^ 24 * h.epoch, h.stamp % 2 ^ 32,
    h.stamp / 2 ^ 32, h.number % 2 ^ 32, h.number / 2 ^ 32] ++ List.replicate 10 0 ++
    [h.rows, 0, 0, 0, pass + 2 ^ 16 * region, offset + 2 ^ 16 * h.before] ++ List.replicate 42 0)

/-- The flag word of a replayed frame (R472): the stored one with REPLAYED, PRETRIGGER for a negative offset, RECONFIG of
its ring, and LANE_DEGRADED where it was cut or ends on a demoted ring (R560). -/
def State.replayFlags (s : State) (n : Nat) (h : Slot) (off : Int) (x : Sending) : Nat :=
  let f := setBits (setBits (setBits h.flags 12 1 1) 14 1 (b2n (decide (off < 0)))) 8 1 (b2n (bit h.flags 8 || x.recfg))
  setBits f 5 1 (b2n (bit h.flags 5 || x.cut || s.on (RING_CLASS_demoted n)))

/-- pflags of a replayed frame's packets (R495): recfg, decim, arcade, and short where asked for. -/
def replayPflags (h : Slot) (x : Sending) (short : Bool) : Nat :=
  b2n (bit h.flags 8 || x.recfg) + 2 * b2n (bit h.flags 1) + 4 + 8 * b2n short

/-- The offset of the frame in slot `x.slot`. -/
def State.sendingOffset (s : State) (r : Nat) (d : RegionDef) (h : Slot) : Int := s.slotOffset r d h.number

/-- The next stored row of the frame in progress has been read (R471, R478): its replay packet is built, or discarded where
a demotion left no room (R40, R560). -/
def State.sendRow (s : State) (r : Nat) (d : RegionDef) (h : Slot) (x : Sending) : State × Sending :=
  let len := h.bytes / h.rows
  let a := d.slotAt x.slot + 64 + x.row * len
  let s0 := s.readErrors a len x.upsets
  let bad := s0.badIn a len
  let s1 := bad.foldl (fun t _ => t.arcBad.report 0xD6 14 [r]) s0
  if x.tight ∧ s1.spoolFree d.ring < len + 28 then
    (if x.cut then s1 else s1.report 0xD8 14 [r], { x with row := x.row + 1, discarded := x.discarded + 1, cut := true })
  else
    let head := leBytes 4 (s.get (ARC_REG_STATE_pass r) + 2 ^ 16 * r) ++
      leBytes 4 (ofSigned 16 (s.sendingOffset r d h) + 2 ^ 16 * b2n (!bad.isEmpty))
    (s1.buildReserved d.ring 8 (replayPflags h x false) h.number x.row (head ++ s1.arcRead a len) x.reserved,
      { x with row := x.row + 1, sent := x.sent + 1, bytes := x.bytes + len, reserved := x.reserved - (len + 28) })

/-- The frame in progress has sent its last row: frame end and metadata, and the pass ends with its last frame or where op 4
has asked for it (R470, R474). -/
def State.endReplay (s : State) (r : Nat) (d : RegionDef) (h : Slot) (x : Sending) : State :=
  let n := d.ring
  let off := s.sendingOffset r d h
  let pf := replayPflags h x x.cut
  let s1 := (s.buildReserved n 3 pf h.number 0 (frameEnd x.sent x.discarded x.bytes 0) x.reserved).bumpWrap (RING_FRAMES_sent n)
  let left := x.reserved - 36
  let s2 := s1.buildReserved n 4 pf h.number 0
    (replayMeta h (s.replayFlags n h off x) (s.get (ARC_REG_STATE_pass r)) r (ofSigned 16 off)) left
  let s3 := (s2.setRing n { s2.ring n with reserved := (s2.ring n).reserved - (left - 276) }).refill n
  let g := s3.region r
  let s4 := s3.setRegion r { g with sending := none }
  if g.ending then (s4.endPass r).report 0xD7 14 [r]
  else if g.pass = some [] then s4.endPass r
  else s4

/-- The rows of the frame in progress that have been read go to its ring. -/
def State.sendRows (s : State) (r : Nat) (d : RegionDef) : State :=
  match (s.region r).sending with
  | none => s
  | some x =>
    let h := s.slot d x.slot
    let done := if x.left = 0 then h.rows else (h.bytes - x.left) / (h.bytes / h.rows)
    let p := (List.range (done - x.row)).foldl (fun a _ => a.1.sendRow r d h a.2) (s, x)
    if h.rows ≤ p.2.row then p.1.endReplay r d h p.2 else p.1.setRegion r { p.1.region r with sending := some p.2 }

/-- The replay reader of region `r` has read `n` bytes more. -/
def State.readReplay (s : State) (r n : Nat) : State :=
  match s.regionDef? r, (s.region r).sending with
  | some d, some x => (s.setRegion r { s.region r with sending := some { x with left := x.left - n } }).sendRows r d
  | _, _ => s

/-- The bytes that the replay reader waits for: of the frame in progress, what its ring has room for. -/
def State.replayWants (s : State) (d : RegionDef) (x : Sending) : Nat :=
  let h := s.slot d x.slot
  let len := h.bytes / h.rows
  if x.tight || x.reserved != 0 then x.left
  else min x.left ((x.row + (s.spoolFree d.ring - 312) / (len + 28)) * len - (h.bytes - x.left))

/-- The frame start of a replayed frame goes to its ring (R470, R472, R500). -/
def State.replayStart (s : State) (r : Nat) (d : RegionDef) (h : Slot) (i : Nat) (x : Sending) : State :=
  let word := match s.writerWindow? d.writer with
    | some (j, w) =>
      leBytes 4 (j % 2 ^ 10 + 2 ^ 10 * w.format + 2 ^ 13 * w.bin + 2 ^ 15 * w.expSel) ++
      leBytes 4 (w.outW + 2 ^ 16 * w.outH) ++ leBytes 4 (w.div + 2 ^ 8 * w.phase)
    | none => leBytes 12 0
  let start := leBytes 8 h.number ++ leBytes 8 h.stamp ++ word ++ leBytes 4 (Sparse.get 0 (s.region r).ids i)
  (s.setRing d.ring { s.ring d.ring with recfg := false }).buildReserved d.ring 1 (replayPflags h x false) h.number 0 start
    x.reserved

/-- The ring can accept the start of a frame of `n` bytes: an elastic ring as R490 would, a guaranteed one with room for the
frame start (R473). -/
def State.acceptsReplay (s : State) (ring n : Nat) : Bool :=
  if s.on (RING_CLASS_in_force ring) then decide (52 ≤ s.spoolFree ring) else decide (n ≤ s.spoolFree ring)

/-- REPLAY_FRAME_OFFER: the reader offers the next frame of a pass when its ring can accept it (R473); `errors` are the
words, with their bits in error, that its reads of the frame will find (R478). A restored ring becomes guaranteed here
(R562). -/
def execReplayFrameOffer (region : Nat) (s : State) (errors : List (Nat × Nat) := []) : Host.Outcome State Fault Refusal :=
  .next (match s.regionDef? region, (s.region region).pass, (s.region region).sending with
  | some d, some (i :: rest), none =>
    let h := s.slot d i
    let s0 := s.restoreDue d.ring
    if s0.acceptsReplay d.ring (replayBytes h) then
      let keep := if s0.on (RING_CLASS_in_force d.ring) then 0 else replayBytes h
      let x : Sending := { slot := i, left := h.bytes, reserved := keep, recfg := (s0.ring d.ring).recfg, upsets := errors }
      let s1 := (s0.reserve d.ring (replayBytes h)).replayStart region d h i x
      (s1.setRegion region { s1.region region with pass := some rest, sending := some { x with reserved := keep - 52 } }).readReplay
        region 0
    else s
  | _, _, _ => s)

/-! ### The round (R455, R456) -/

/-- The guaranteed writers in ascending order, with their shares (R112). -/
def State.writerShares (s : State) : List (Nat × Nat) :=
  (List.range 64).filterMap fun w =>
    match shareEntry (s.body 5 0) 1 w with
    | some (true, n) => some (w, n)
    | _ => none

/-- What waits for transfer slots, by place in the fixed cycle: writers 0 to 63, the replay reader of region r at 64 + r,
the host read at 80, staging at 81; with the bytes that wait. -/
def State.arcWaits (s : State) : List (Nat × Nat) :=
  let writers : List (Nat × Nat) := s.arc.intake.map fun e => (e.1, intakeBytes e.2)
  let readers : List (Nat × Nat) :=
    s.regionDefs.filterMap fun e => (s.region e.1).sending.map fun x => (64 + e.1, s.replayWants e.2 x)
  (writers ++ readers ++ [(80, if s.arc.hostWaits then 64 else 0), (81, s.arc.stageWaits)]).filter fun e => e.2 != 0

/-- The owners of the 248 unreserved slots (R455). Which slots are whose is not stated: ascending from slot 8 (DESIGN CHOICE,
notes/assumptions/78.md). -/
def slotOwners (gs : List (Nat × Nat)) : List (Option Nat) :=
  let own := gs.flatMap fun g => List.replicate g.2 (some g.1)
  (own ++ List.replicate (248 - own.length) none).take 248

/-- One unreserved slot (R456): its owner, else another guaranteed writer, else the elastic requester whose turn it is. What
waits, and the elastic requester served last. -/
def serveSlot (gs : List Nat) (a : List (Nat × Nat) × Nat) (owner : Option Nat) : List (Nat × Nat) × Nat :=
  let waits (k : Nat) : Bool := a.1.any fun e => e.1 == k && e.2 != 0
  let take (k : Nat) : List (Nat × Nat) := a.1.map fun e => if e.1 = k then (e.1, e.2 - 64) else e
  match (owner.filter waits).orElse fun _ => gs.find? waits with
  | some g => (take g, a.2)
  | none =>
    match turn a.2 ((a.1.map (·.1)).filter waits) with
    | some k => (take k, k)
    | none => a

/-- Requester `k` has been served `n` bytes. -/
def State.arcServed (s : State) (k n : Nat) : State :=
  if n = 0 then s
  else if k < 64 then s.drain k n
  else if k < 80 then s.readReplay (k - 64) n
  else if k = 80 then s.withArc { s.arc with hostWaits := false }
  else s.withArc { s.arc with stageWaits := s.arc.stageWaits - n }

/-- One round: every unreserved slot serves one burst of 64 bytes (R455, R456). -/
def State.arcRound (s : State) : State :=
  let w := s.arcWaits
  if w.isEmpty then s
  else
    let gs := s.writerShares
    let r := (slotOwners gs).foldl (serveSlot (gs.map (·.1))) (w, s.arc.turn)
    (w.zip r.1).foldl (fun t e => t.arcServed e.1.1 (e.1.2 - e.2.2)) (s.withArc { s.arc with turn := r.2 })

/-- The MEM cycles of one SYS cycle go by; every 320 of them a round has been served (R80, R455). MEM is output 3 of SYNA. -/
def State.arcTick (s : State) : State :=
  if !s.synaOut 3 then s
  else
    let t := s.arc.round + s.lget (CLK_SYNA_OUT_CFG_div 4)
    let m := 320 * s.lget (CLK_SYNA_OUT_CFG_div 3)
    if t < m then s.withArc { s.arc with round := t } else (s.withArc { s.arc with round := t - m }).arcRound

/-! ### Host reads and scrubbing -/

/-- A write of ARC_HOST_ADDR starts a fetch (R475). -/
def State.hostFetch (s : State) (v : Word) : State :=
  let s1 := (s.plainWrite aARC_HOST_ADDR v).put ARC_HOST_STATUS_ready 0
  s1.withArc { s1.arc with fetching := true, hostWaits := true }

/-- ARC_HOST_FETCH: a write of ARC_HOST_ADDR that names line `line`. -/
def execArcHostFetch (line : Nat) (s : State) : Host.Outcome State Fault Refusal :=
  .next (s.hostFetch (BitVec.ofNat 32 (64 * line)))

/-- ARC_HOST_FETCH_DONE: the line is in place (R475, R478); `errors` are the words, with their bits in error, that the read
finds. -/
def execArcHostFetchDone (s0 : State) (errors : List (Nat × Nat) := []) : Host.Outcome State Fault Refusal :=
  .next (if !s0.arc.fetching then s0
  else
    let a := 64 * s0.get ARC_HOST_ADDR_line
    let s := s0.readErrors a 64 errors
    let bad := s.badIn a 64
    let s1 := ((leWords (s.arcRead a 64)).zip (List.range 16)).foldl
      (fun s p => s.setReg (aARC_HOST_BUF p.2) (BitVec.ofNat 32 p.1)) s
    let s2 := ((s1.put ARC_HOST_STATUS_ready 1).put ARC_HOST_STATUS_ecc_error (b2n (!bad.isEmpty)))
    bad.foldl (fun t _ => t.arcBad) (s2.withArc { s2.arc with fetching := false, hostWaits := false }))

/-- The region that holds Arcade address `a`. -/
def State.regionAt (s : State) (a : Nat) : Option Nat :=
  (s.regionDefs.find? fun e => decide (e.2.base ≤ a) && decide (a < e.2.base + e.2.length)).map (·.1)

/-- The loader's part replaced. -/
def State.setCfg (s : State) (c : Loader) : State := s.withCfg c

/-- A load ends, or a waiting overlay is withdrawn, with a cause (R121, R141). -/
def State.cfgReject (s : State) (c sec rec : Nat) : State :=
  let s1 := (s.setCfg { s.cfg with load := none, waiting := none }).put CFG_STATUS_overlay_pending 0
  let s2 := ((s1.put CFG_LOAD_STATUS_busy 0).put CFG_LOAD_STATUS_cause c).put CFG_LOAD_STATUS_section sec
  ((s2.put CFG_LOAD_STATUS_record (min rec 1023)).hwSet CFG_IRQ_STAT_rejected).report c 3 [0]

/-- The scrubber takes a slot (R476 to R478): a write-back that nothing has cancelled is made, and the next line is read, in
whose word `word` it finds `errorBits` bits in error. A pass ends with the top line. -/
def State.arcScrubLine (s : State) (word errorBits : Nat) : State :=
  let k := s.arc.scrub
  let line := k.next
  let s1 := s.withArc { s.arc with scrub := k.took (2 ^ 26) errorBits }
  let s2 := if k.again.isNone ∧ line = 2 ^ 26 - 64 then s1.bumpWrap ARC_SCRUB_passes else s1
  let s3 := s2.wordFound (line + 8 * (word % 8)) errorBits
  (s3.badIn line 64).foldl
    (fun t a => match t.regionAt a with
      | some r => t.arcBad.report 0xD6 14 [r]
      | none => t.arcBad.report 0xD9 14 [0]) s3

end Sys2Proof.Machine
end

