-- ==== Sys2Proof/Machine/Nvm.lean ====
section
/-! DEFINITION. The NVM, its commands, the calibration seed store and the loading of seeds (R172 to R186, R325 to R328,
R703). -/

namespace Sys2Proof.Machine

/-! ### Words -/

/-- Word `i`; an erased word reads all ones (R172). -/
def State.nvmWord (s : State) (i : Nat) : Word := Sparse.get 0xFFFFFFFF#32 s.nvm.words i

/-- Word `i` is erased. -/
def State.nvmErased (s : State) (i : Nat) : Bool := (Sparse.find s.nvm.words i).isNone

/-- The bytes of `n` words from word `i`. -/
def State.nvmBytes (s : State) (i n : Nat) : List Byte :=
  (List.range n).flatMap fun k => leBytes 4 (s.nvmWord (i + k)).toNat

/-- One of `n` words from word `i` has an uncorrectable error. -/
def State.nvmBad (s : State) (i n : Nat) : Bool := s.nvm.bad.any fun w => decide (i ≤ w) && decide (w < i + n)

/-- Words written in order. -/
def nvmPut (m : List (Nat × Word)) (ws : List (Nat × Word)) : List (Nat × Word) :=
  ws.foldl (fun m w => Sparse.insert m w.1 w.2) m

/-- Sectors from `k`, `n` of them, erased. -/
def State.nvmErase (s : State) (k n : Nat) : State :=
  let inside (w : Nat) : Bool := decide (1024 * k ≤ w) && decide (w < 1024 * (k + n))
  s.withNvm { s.nvm with
      words := s.nvm.words.filter fun w => !inside w.1
      bad := s.nvm.bad.filter fun w => !inside w }

/-! ### Key hash (R178, R179) -/

/-- Sector 18 is sealed: its seal word is not erased. -/
def State.sealed (s : State) : Bool := !s.nvmErased (1024 * 18 + 8)

/-- The seal matches its hash. -/
def State.sealOk (s : State) : Bool :=
  s.sealed && !s.nvmBad (1024 * 18) 9 && crc32c (s.nvmBytes (1024 * 18) 8) == (s.nvmWord (1024 * 18 + 8)).toNat

/-- A seal that does not match refuses every image (R179). -/
def State.sealBad (s : State) : Bool := s.sealed && !s.sealOk

/-- The status bits that follow sector 18. -/
def State.showSeal (s : State) : State :=
  let ok := b2n s.sealOk
  ((s.put NVM_STATUS_key_sealed ok).put CFG_STATUS_key_enforced ok).put CFG_STATUS_seal_bad (b2n s.sealBad)

/-! ### Seed banks -/

/-- The first word of seed bank 0 (A) or 1 (B). -/
def seedBase (b : Nat) : Nat := if b = 0 then 2048 else 10240

/-- The format word of seed format 1 for stepping B1. -/
def seedFormat : Nat := 0x000100B1

/-- What a seed bank holds (R181). -/
inductive SeedKind where
  | valid | empty | torn | foreign
deriving DecidableEq, Repr

/-- The sequence word of a bank. -/
def State.seedSeq (s : State) (b : Nat) : Nat := (s.nvmWord (seedBase b)).toNat

/-- The payload length and the payload of a bank. -/
def State.seedLen (s : State) (b : Nat) : Nat := (s.nvmWord (seedBase b + 2)).toNat
def State.seedPayload (s : State) (b : Nat) : List Byte :=
  (s.nvmBytes (seedBase b + 4) (ceilDiv (s.seedLen b) 4)).take (s.seedLen b)

/-- The kind of a bank (R181). -/
def State.seedKind (s : State) (b : Nat) : SeedKind :=
  let w := seedBase b
  if (s.nvm.words.all fun x => decide (x.1 < w) || decide (w + 8192 ≤ x.1)) && !s.nvmBad w 8192 then .empty
  else
    let rest := !s.nvmErased w && decide (s.seedLen b ≤ 32752) && !s.nvmBad w (4 + ceilDiv (s.seedLen b) 4) &&
      crc32c (s.nvmBytes (w + 1) 2 ++ s.seedPayload b) == (s.nvmWord (w + 3)).toNat
    if rest then (if (s.nvmWord (w + 1)).toNat = seedFormat then .valid else .foreign) else .torn

/-- The payload keeps the layout of R325 (R326). -/
def seedsFit (p : List Byte) : Bool :=
  p.length == 23140 && leAt p 0 2 == 24 && leAt p 2 2 == 225 &&
  (List.range 24).all fun b =>
    let o := 4 + 64 * b
    let flags := leAt p (o + 0x1C) 1
    let first := leAt p (o + 0x1D) 1
    let map := leAt p (o + 0x20) 32
    flags / 2 == 0 && leAt p (o + 0x1E) 2 == 0 && decide (map < 2 ^ 225) &&
    (if first = 255 then flags == 0 && map == 0 else flags == 1 && decide (first < 225) && bit map first) &&
    (List.range 225).all fun i =>
      let q := 0x604 + 900 * b + 4 * i
      let off := toSigned 8 (leAt p q 1)
      let gain := toSigned 8 (leAt p (q + 1) 1)
      decide (-64 ≤ off) && decide (off ≤ 63) && decide (-64 ≤ gain) && decide (gain ≤ 63)

/-- The bank that a boot takes (R182, R326): of the valid banks that keep the layout the one with the larger sequence
number, A when they are equal. -/
def State.seedChoice (s : State) : Option Nat :=
  let good b := s.seedKind b == .valid && seedsFit (s.seedPayload b)
  if good 0 && good 1 then some (if s.seedSeq 0 < s.seedSeq 1 then 1 else 0)
  else if good 0 then some 0 else if good 1 then some 1 else none

/-- The bank that a store writes (R183, R184): the one that a boot would not take; where it takes neither, the one that is
empty, torn or foreign, A if both are, else the one with the smaller number. -/
def State.storeBank (s : State) : Nat :=
  match s.seedChoice with
  | some b => 1 - b
  | none =>
    if s.seedKind 0 ≠ .valid then 0
    else if s.seedKind 1 ≠ .valid then 1
    else if s.seedSeq 1 < s.seedSeq 0 then 1 else 0

/-- The sequence number of a store: the larger one plus one (R183, R185). -/
def State.storeSeq (s : State) : Nat :=
  let seq b := if s.seedKind b = .valid then s.seedSeq b else 0
  max (seq 0) (seq 1) + 1

/-! ### The calibration state as seeds -/

/-- The payload of the calibration state in force (R325, R328). -/
def State.seedsNow (s : State) : List Byte :=
  leBytes 2 24 ++ leBytes 2 225 ++
  ((List.range 24).flatMap fun b =>
    let k := s.bank b
    k.weights.flatMap (leBytes 2) ++ leBytes 1 (b2n k.frozen) ++ leBytes 1 (k.first.getD 255) ++ leBytes 2 0 ++
      leBytes 32 (maskOf k.retired)) ++
  ((List.range 24).flatMap fun b =>
    (s.bank b).slices.flatMap fun c =>
      leBytes 1 (ofSigned 8 c.off) ++ leBytes 1 (ofSigned 8 c.gain) ++ leBytes 1 (ofSigned 8 c.c1) ++
        leBytes 1 (ofSigned 8 c.c2))

/-- The columns that retirements after the first leave dead (R295). -/
def deadColumns (first : Nat) (others : List Nat) : List Nat := others.map fun i => if i < first then i else i - 1

/-- The registers that show a bank's retirements (R294 to R296). -/
def State.showBank (s : State) (b : Nat) : State :=
  let k := s.bank b
  let s1 := (s.put (RDO_BANK_STATE_in_service b) (225 - k.retired.length)).put (RDO_BANK_STATE_dead b) k.dead.length
  match k.first with
  | none => s1
  | some f =>
    let s2 := ((s1.put (RDO_BANK_STATE_first_retired b) f).put (CAL_BANK_RES_frozen b) 1).bump RDO_STATUS_frozen_banks
    let s3 := s2.put RDO_FROZEN_banks (setBits (s2.get RDO_FROZEN_banks) b 1 1)
    let s4 := if k.dead.isEmpty then s3 else s3.put RDO_DEGRADED_banks (setBits (s3.get RDO_DEGRADED_banks) b 1 1)
    (List.range 8).foldl
      (fun s w => (s.put (RDO_BANK_RET_retired b w) (maskOf k.retired / 2 ^ (32 * w))).put (RDO_BANK_DEAD_dead b w)
        (maskOf k.dead / 2 ^ (32 * w))) s4

/-- Bank `b` as a seed payload gives it: every k is 0 (R317). -/
def seedOf (p : List Byte) (b : Nat) : Bank :=
  let o := 4 + 64 * b
  let first := leAt p (o + 0x1D) 1
  let others := (setBitsOf 225 (leAt p (o + 0x20) 32)).filter (· != first)
  { weights := (List.range 14).map fun i => leAt p (o + 2 * i) 2
    slices := (List.range 225).map fun i =>
      let q := 0x604 + 900 * b + 4 * i
      { off := toSigned 8 (leAt p q 1), gain := toSigned 8 (leAt p (q + 1) 1)
        c1 := toSigned 8 (leAt p (q + 2) 1), c2 := toSigned 8 (leAt p (q + 3) 1) }
    first := if first = 255 then none else some first
    retired := if first = 255 then [] else first :: others
    dead := if first = 255 then [] else deadColumns first others }

/-- The banks of the factory seeds (R327). -/
def factoryOf (p : List Byte) (b : Nat) : Bank :=
  let o := 4 + 32 * b
  { weights := (List.range 14).map fun i => leAt p (o + 2 * i) 2
    slices := List.replicate 225 { off := toSigned 8 (leAt p (o + 28) 1), gain := toSigned 8 (leAt p (o + 29) 1) } }

/-- Sector 1 keeps the layout of R327, with its CRC (R703). -/
def State.factoryFits (s : State) : Bool :=
  let p := s.nvmBytes 1024 193
  !s.nvmBad 1024 194 && crc32c p == (s.nvmWord 1217).toNat && leAt p 0 2 == 24 && leAt p 2 2 == 0 &&
  (List.range 24).all fun b =>
    let o := 4 + 32 * b
    let off := toSigned 8 (leAt p (o + 28) 1)
    let gain := toSigned 8 (leAt p (o + 29) 1)
    leAt p (o + 30) 2 == 0 && decide (-64 ≤ off) && decide (off ≤ 63) && decide (-64 ≤ gain) && decide (gain ≤ 63)

/-- Sector 0 is readable and its CRC matches (R703). -/
def State.identityFits (s : State) : Bool := !s.nvmBad 0 5 && crc32c (s.nvmBytes 0 4) == (s.nvmWord 4).toNat

/-- Fourteen weights that the spec does not give: the nominal weights held in ROM (R166). -/
def State.romWeights (s : State) : List Nat × State :=
  (List.range 14).foldl (fun x _ => let v := x.2.free; (x.1 ++ [v.1 % 2 ^ 16], v.2)) ([], s)

/-- Banks loaded (R317): the state in force is theirs. -/
def State.loadBanks (s : State) (bank : Nat → Bank) : State :=
  (List.range 24).foldl State.showBank (s.withRdo { s.rdo with banks := (List.range 24).map bank })

/-- The seeds chosen at step 6 are loaded (R317, R327); where sectors 0 and 1 cannot be read, nominal weights (R166). -/
def State.loadSeeds (s : State) : State :=
  if s.on SYS_BOOT_REPORT_seed_factory then
    if s.factoryFits && s.identityFits then s.loadBanks (factoryOf (s.nvmBytes 1024 193))
    else
      let w := s.romWeights
      w.2.loadBanks fun _ => { weights := w.1 }
  else s.loadBanks (seedOf (s.seedPayload (s.get SYS_BOOT_REPORT_seed_bank)))

/-! ### Commands -/

/-- The result of the last command, with its interrupts. A command that is refused is over at once (DEDUCED,
notes/assumptions/26.md). -/
def State.nvmResult (s : State) (cause : Nat) : State :=
  let s1 := (s.put NVM_STATUS_cause cause).hwSet NVM_IRQ_STAT_done
  if cause = 0 then s1 else s1.hwSet NVM_IRQ_STAT_error

/-- The sector of a byte address. -/
def nvmSector (a : Nat) : Nat := a / 4096

/-- The host may program or erase the sector (R174). -/
def hostWrites (k : Nat) : Bool := k == 18 || decide (21 ≤ k)

/-- A warning condition on VDD, VAD or VDDAO (R176). -/
def State.nvmWarning (s : State) : Bool := land (s.get SAFE_SUPPLY_warning) 0b1101 != 0

/-- Why a command is refused before it starts; 0 if it is not. -/
def State.nvmRefusal (s : State) (op : Nat) : Nat :=
  let a := s.get NVM_ADDR_addr
  let k := nvmSector a
  if op = 0 ∨ 4 < op ∨ a % 4 ≠ 0 then 0x40
  else if s.safe.supervisorDead then 0x88
  else if (op = 2 ∨ op = 3) ∧ hostWrites k = false then 0x42
  else if op = 3 ∧ k = 18 ∧ s.sealed = true then 0x46
  else if s.nvm.running.isSome then 0x44
  else if op = 4 ∧ s.power < 3 then 0x4C
  else if (op = 2 ∨ op = 3) ∧ s.on NVM_STATUS_unlocked = false then 0x4B
  else if op ≠ 1 ∧ s.nvmWarning = true then 0x47
  else if op = 2 ∧ s.nvmErased (a / 4) = false then 0x41
  else 0

/-- An operation starts. -/
def State.nvmStart (s : State) (o : NvmOp) : State :=
  (s.withNvm { s.nvm with running := some o }).put NVM_STATUS_busy 1

/-- A store that has not yet taken the calibration state takes it now (R328). -/
def State.storeTake (s : State) : State :=
  match s.nvm.running with
  | some (.store b q none r) => s.withNvm { s.nvm with running := some (.store b q (some s.seedsNow) r) }
  | _ => s

/-- A write of NVM_CMD (R173 to R186). Any command ends a pending unlock (R175). -/
def State.nvmCmd (s0 : State) (op : Nat) : State :=
  let c := s0.nvmRefusal op
  let s := s0.put NVM_STATUS_unlocked 0
  let a := s.get NVM_ADDR_addr
  if c ≠ 0 then s.nvmResult c
  else if op = 1 then
    (if s.nvmBad (a / 4) 1 then (s.put NVM_RDATA_data 0).nvmResult 0x45
    else (s.put NVM_RDATA_data (s.nvmWord (a / 4)).toNat).nvmResult 0)
  else if op = 2 then s.nvmStart (.program (a / 4) (s.reg aNVM_WDATA))
  else if op = 3 then s.nvmStart (.erase (nvmSector a))
  else
    let t := s.nvmStart (.store s.storeBank s.storeSeq none false)
    if s.slotsRun then t else t.storeTake

/-- NVM_UNLOCK (R175). -/
def execNvmUnlock (key : Word) (s : State) : Host.Outcome State Fault Refusal :=
  .next (if key = 0x6A53#32 then s.put NVM_STATUS_unlocked 1 else s)

/-- NVM_READ. -/
def execNvmRead (s : State) : Host.Outcome State Fault Refusal := .next (s.nvmCmd 1)

/-- NVM_PROGRAM. -/
def execNvmProgram (s : State) : Host.Outcome State Fault Refusal := .next (s.nvmCmd 2)

/-- NVM_ERASE_SECTOR. -/
def execNvmEraseSector (s : State) : Host.Outcome State Fault Refusal := .next (s.nvmCmd 3)

/-- STORE_SEEDS. -/
def execStoreSeeds (s : State) : Host.Outcome State Fault Refusal := .next (s.nvmCmd 4)

/-- NVM_CMD_RESERVED_OP: op 0, 5, 6 or 7. -/
def execNvmCmdReservedOp (op : Nat) (s : State) : Host.Outcome State Fault Refusal :=
  .next (if op = 0 ∨ (5 ≤ op ∧ op ≤ 7) then s.nvmCmd op else s)

/-! ### Completion -/

/-- A word left as an interrupted or failed program leaves it: erased, or programmed with a value that the spec does not
state, readable or not. -/
def State.spoilWord (s : State) (i : Nat) : State :=
  let v := s.free
  let t := v.2
  if bit v.1 32 then t.withNvm { t.nvm with words := Sparse.erase t.nvm.words i, bad := t.nvm.bad.filter (· != i) }
  else t.withNvm { t.nvm with
    words := Sparse.insert t.nvm.words i (BitVec.ofNat 32 v.1)
    bad := if bit v.1 33 then i :: t.nvm.bad.filter (· != i) else t.nvm.bad.filter (· != i) }

/-- A sector left as an interrupted or failed erase leaves it. -/
def State.spoilSector (s : State) (k : Nat) : State :=
  (s.nvm.words.filter fun w => decide (1024 * k ≤ w.1) && decide (w.1 < 1024 * (k + 1))).foldl
    (fun s w => s.spoilWord w.1) s

/-- The programs of a store in their order: words 1 and 2, the payload, word 3, last word 0 (R183). -/
def storeWrites (b seq : Nat) (p : List Byte) : List (Nat × Word) :=
  let w := seedBase b
  let head := leBytes 4 seedFormat ++ leBytes 4 p.length
  let body := (List.range (ceilDiv p.length 4)).map fun i => (w + 4 + i, BitVec.ofNat 32 (leAt p (4 * i) 4))
  [(w + 1, BitVec.ofNat 32 seedFormat), (w + 2, BitVec.ofNat 32 p.length)] ++ body ++
    [(w + 3, BitVec.ofNat 32 (crc32c (head ++ p))), (w, BitVec.ofNat 32 seq)]

/-- A store that ends early has programmed some of its words, fewer than `n`, in order; the word in hand may be spoilt (R183,
R184). -/
def State.storePart (s : State) (b seq : Nat) (p : List Byte) (n : Nat) (whole : Bool) : State :=
  let t := s.nvmErase (2 + 8 * b) 8
  let ws := storeWrites b seq p
  let v := t.free
  let k := v.1 % n
  let u : State := v.2.withNvm { v.2.nvm with words := nvmPut v.2.nvm.words (ws.take k) }
  if whole then u
  else match ws[k]? with | some w => u.spoilWord w.1 | none => u

/-- A store that a reset interrupts: within the erase, among its programs, or with all of them made (R184). -/
def State.storeTorn (s : State) (b seq : Nat) (p : List Byte) : State :=
  let v := s.free
  if bit v.1 0 then (List.range 8).foldl (fun t k => t.spoilSector (2 + 8 * b + k)) v.2
  else v.2.storePart b seq p ((storeWrites b seq p).length + 1) false

/-- NVM_COMMAND_DONE: the program, erase or store completes and is verified (R177, R183, R176). -/
def execNvmCommandDone (verified : Bool) (s0 : State) : Host.Outcome State Fault Refusal :=
  .next (
    let s := s0.storeTake
    let t : State := (s.withNvm { s.nvm with running := none }).put NVM_STATUS_busy 0
    match s.nvm.running with
    | none => s0
    | some (.program w v) =>
      (if verified then
        ((t.withNvm { t.nvm with words := Sparse.insert t.nvm.words w v }).showSeal).nvmResult 0
      else (t.spoilWord w).showSeal.nvmResult 0x43)
    | some (.erase k) =>
      if verified then (t.nvmErase k 1).showSeal.nvmResult 0 else (t.spoilSector k).showSeal.nvmResult 0x43
    | some (.store b q p r) =>
      let pay := p.getD []
      if r then (t.storePart b q pay (storeWrites b q pay).length true).nvmResult 0x47
      else if !verified then (t.storePart b q pay (storeWrites b q pay).length false).nvmResult 0x43
      else
        let e := t.nvmErase (2 + 8 * b) 8
        let u : State := { e with nvm := { e.nvm with words := nvmPut e.nvm.words (storeWrites b q pay) } }
        (u.setReg (if b = 0 then aNVM_SEED_SEQ_A else aNVM_SEED_SEQ_B) (BitVec.ofNat 32 q)).nvmResult 0)

/-- A supply warning on VDD, VAD or VDDAO refuses the next program of a running store (R176). -/
def State.storeWarned (s : State) : State :=
  match s.nvm.running with
  | some (.store b q p _) => s.withNvm { s.nvm with running := some (.store b q p true) }
  | _ => s

/-- The next word of a boot log record is programmed; the record that fills its sector is followed by the erasure of the other
one (R180). -/
def State.recordTick (s : State) : State :=
  match s.nvm.recording with
  | [] => s
  | w :: rest =>
    let t := s.withNvm { s.nvm with words := Sparse.insert s.nvm.words w.1 w.2, recording := rest }
    match rest, s.nvm.eraseNext with
    | [], some k => (t.withNvm { t.nvm with eraseNext := none }).nvmErase k 1
    | _, _ => t

/-- A record that a reset interrupts is torn: its next word is left in any state (R180). -/
def State.tearRecord (s : State) : State :=
  match s.nvm.recording with
  | [] => s
  | w :: _ => (s.withNvm { s.nvm with recording := [], eraseNext := none }).spoilWord w.1

/-- An operation that a reset interrupts (R69, R180, R184). -/
def State.tearNvm (s0 : State) : State :=
  let s := s0.tearRecord
  let t : State := s.withNvm { s.nvm with running := none }
  match s.nvm.running with
  | none => s
  | some (.program w _) => t.spoilWord w
  | some (.erase k) => t.spoilSector k
  | some (.store b q p _) => t.storeTorn b q (p.getD s.seedsNow)

end Sys2Proof.Machine
end

