-- ==== Sys2Proof/Machine/Reset.lean ====
section
/-! DEFINITION. What a reset keeps and what it clears (R60, R143 to R145, R187, R218, R454). -/

namespace Sys2Proof.Machine

/-- The registers of the always-on island, with the bits it holds (05, Registers; 21, Registers). -/
def aoRegisters : List (Nat × Nat) :=
  [(aSYS_BOOT_REPORT, 2 ^ 32 - 1), (aSYS_BOOT_PREV, 2 ^ 32 - 1), (aPWR_WAKE, 2 ^ 8 + 2 ^ 9), (aPWR_WAKE_SRC, 2 ^ 32 - 1)]

/-- Something holds the device in reset: RESETB low (R677), TESTEN high (R53) or EXTEST (R56). -/
def Supply.holds (p : Supply) : Bool := p.resetbLow || p.testen || p.extest

/-- The start of a boot, which takes the next boot number (R180): the previous report is copied whole, and all of it but the
attempts is cleared, with the source and rail of the new reset (R187); a reset taken in Minimal Mode clears the attempts too
(R144). -/
def State.bootStart (s : State) : State :=
  let t := (s.setReg aSYS_BOOT_PREV (s.reg aSYS_BOOT_REPORT)).withBoot
    { s.boot with bootNumber := (s.boot.bootNumber + 1) % 2 ^ 32, clearAttempts := false }
  let n := if s.boot.clearAttempts then 0 else s.get SYS_BOOT_REPORT_attempts
  ((((t.setReg aSYS_BOOT_REPORT 0).put SYS_BOOT_REPORT_attempts n).put SYS_BOOT_REPORT_reset_src s.boot.source).put
    SYS_BOOT_REPORT_rail s.boot.rail)

/-- Everything outside the always-on island, the NVM, the test access port, the straps and what waits outside returns
to its reset value; the source and the rail are latched apart (R143, R187), and so is whether the reset was taken in Minimal
Mode (R144). The Arcade keeps its content only through a reset of the test access port (R454, source 5). -/
def State.resetTo (s0 : State) (source rail : Nat) : State :=
  let s := s0.tearNvm
  let base : State :=
    { cycle := s.cycle, fresh := s.fresh, pending := s.pending, nvm := s.nvm
      arcadeMem := if source = 5 then s.arcadeMem else []
      supply := { s.supply with episodes := [] }
      boot := {
        phase := if s.supply.holds then .held else .released
        source := source, rail := rail, bootNumber := s.boot.bootNumber
        clearAttempts := s.minimal || (s.boot.phase == .held && s.boot.clearAttempts) } }
  let t := aoRegisters.foldl (fun t r => t.setReg r.1 (BitVec.ofNat 32 (land (s.reg r.1).toNat r.2))) base
  if t.supply.holds then t else t.bootStart

/-- A cold reset also clears the always-on island, before the boot copies its report (R60, R143, R187). -/
def State.coldReset (s : State) : State :=
  (aoRegisters.foldl (fun t r => t.setReg r.1 0) s).resetTo 0 0

end Sys2Proof.Machine
end

