-- ==== Sys2Proof/Machine/Ecc.lean ====
section
/-! DEFINITION. Errors of the on-chip memories (R650 to R652). -/

namespace Sys2Proof.Machine

/-- An uncorrectable error of an on-chip memory (R652): counted, recorded and reported, with bit `fault` of
SAFE_FAULT_STAT. The log entry is appended by its finder. -/
def State.eccBad (s : State) (memory addr fault : Nat) : State :=
  let s1 := ((s.bump SAFE_ECC_uncorrectable).hwSet SAFE_IRQ_STAT_ecc).count 105
  let s2 := (s1.put SAFE_ECC_LAST_memory memory).put SAFE_ECC_LAST_line (addr / 64)
  s2.setFault (2 ^ fault)

/-- Its log entry: memory and line address, then what the cause adds (R659). -/
def State.eccLog (s : State) (cause memory addr : Nat) (more : List Nat := []) : State :=
  s.report cause 19 ([memory, addr / 64 * 64] ++ more)

/-- Words of a memory whose data are used as read are read in the foreground, each at its byte address with so many bits in
error: one bit is corrected and counted, more are logged (R650, R652). -/
def State.sramErrors (s : State) (memory : Nat) (errors : List (Nat × Nat)) : State :=
  errors.foldl
    (fun s e =>
      if e.2 = 0 then s
      else if e.2 = 1 then (s.bump SAFE_ECC_corrected).count 104
      else (s.eccBad memory e.1 1).eccLog 0x87 memory e.1) s

/-- A word of a memory holds an uncorrectable error. -/
def State.markBad (s : State) (memory addr : Nat) : State :=
  let w := (memory, addr / 8 * 8)
  s.withSafe { s.safe with badWords := if s.safe.badWords.contains w then s.safe.badWords else w :: s.safe.badWords }

/-- Some word of memory `m` that overlaps `n` bytes from `a` holds an uncorrectable error. -/
def State.badAt (s : State) (m a n : Nat) : Option Nat :=
  (s.safe.badWords.find? fun w => decide (0 < n) && w.1 == m && decide (w.2 < a + n) && decide (a < w.2 + 8)).map (·.2)

/-- The bytes of an on-chip memory: the four of compute planning (12), the spool (16), the replay buffer (R525), the result
buffer (19) and the event log buffer (22). -/
def sramSize (m : Nat) : Nat :=
  match m with
  | 1 => 2 ^ 22
  | 2 => 2 ^ 20
  | 3 => 2 ^ 18
  | 4 => 24 * 2 ^ 20
  | 5 => 2 ^ 17
  | 7 => 2 ^ 14
  | 10 => 2 ^ 14
  | m => 64 * (Config.sramLines m + 1)

/-- The scrubber of memory `m`. -/
def State.sweep (s : State) (m : Nat) : Scrubber := Sparse.get {} s.safe.sweeps m

/-- Words of memory `m` written whole lose their error, and the write cancels the write-back of a line it touches (R651). -/
def State.clearBad (s : State) (m a n : Nat) : State :=
  s.withSafe { s.safe with
      badWords := s.safe.badWords.filter fun w => !(w.1 == m && decide (a ≤ w.2) && decide (w.2 + 8 ≤ a + n))
      sweeps := Sparse.put {} s.safe.sweeps m ((s.sweep m).written a n) }

/-- Bytes of tensor memory (R353, R357). -/
def State.tensorRead (s : State) (a n : Nat) : List Byte := cellsSlice n s.tensorMem a

/-- Bytes are written into tensor memory. -/
def State.tensorPut (s : State) (a : Nat) (bs : List Byte) : State :=
  (s.withTensorMem (cellsWrite s.tensorMem a bs)).clearBad 1 a bs.length

end Sys2Proof.Machine
end

