-- ==== Sys2Proof/Machine/Npc.lean ====
section
/-! DEFINITION. Near-pixel compute: plans, taps, runs, and every instruction of a program (R353 to R412). -/

namespace Sys2Proof.Machine

/-! ### Programs -/

/-- A tap record (R355). -/
structure TapRec where
  tap : Nat
  w : Nat
  h : Nat
  buf0 : Nat
  buf1 : Nat
deriving DecidableEq, Repr

/-- The memory plan of a program (R355). -/
structure Plan where
  arrays : List Nat
  taps : List TapRec
  ring : Nat
  refRing : Nat
  maxPayload : Nat
  words : Nat
  scratch : Nat
  scratchLen : Nat
  tileFirst : Nat
  tileCount : Nat
deriving DecidableEq, Repr

/-- The plan that opens an NPC_PROG body. -/
def planOf (b : List Byte) : Plan :=
  { arrays := setBitsOf 4 (leAt b 0 1)
    taps := (List.range (min 4 (leAt b 1 1))).map fun t =>
      let o := 0x20 + 16 * t
      { tap := leAt b o 1, w := leAt b (o + 2) 2, h := leAt b (o + 4) 2, buf0 := leAt b (o + 8) 4, buf1 := leAt b (o + 12) 4 }
    ring := leAt b 2 1, refRing := leAt b 3 1, maxPayload := leAt b 4 2, words := leAt b 6 2
    scratch := leAt b 8 4, scratchLen := leAt b 12 4, tileFirst := leAt b 16 1, tileCount := leAt b 17 1 }

/-- The bytes of one buffer of a tap. -/
def TapRec.bytes (t : TapRec) : Nat := 4 * t.w * t.h

/-- The code word at `pc`. -/
def codeWord (b : List Byte) (pc : Nat) : Nat := leAt b (0x60 + 8 * pc) 8

/-- The programs of the structure in force. -/
def State.programs (s : State) : List Nat := (List.range 16).filter fun p => s.has 7 p

/-- Where code of program `p` begins in instruction memory: programs stand one after another in their order
(DESIGN CHOICE, notes/assumptions/10.md: only the address of an ECC error shows it). -/
def State.codeBase (s : State) (p : Nat) : Nat :=
  ((s.programs.filter fun q => decide (q < p)).map fun q => 8 * (planOf (s.body 7 q)).words).sum

/-- A run's plan. -/
def Run.plan (r : Run) : Plan := planOf r.body

/-! ### Taps -/

/-- The element of R359 from the sum of its values. -/
def tapElement (format scale sum : Nat) : Nat :=
  let n := 4 ^ scale
  let h := nth [4, 8, 12, 4, 2] format
  min 255 (((sum + n / 2) / n + 2 ^ (h - 1)) / 2 ^ h)

/-- One tap row from its 2s output rows, of `cols` elements per phase (R358, R359). -/
def tapRow (format scale : Nat) (rows : List (Array Nat)) (cols : Nat) : List Byte :=
  let n := 2 ^ scale
  (List.range cols).flatMap fun c =>
    (List.range 4).map fun q =>
      let sum := (List.range n).foldl
        (fun a i => (List.range n).foldl
          (fun a j => a + (rows.getD (2 * i + q / 2) #[]).getD (2 * n * c + 2 * j + q % 2) 0) a) 0
      BitVec.ofNat 8 (tapElement format scale sum)

/-- The frames that a window's tap has taken before frame `n`, counted from its anchor, are odd in number (R360). -/
def State.tapOdd (s : State) (i : Nat) (w : Win) (n : Nat) : Bool :=
  ((n : Int) - (s.anchor i : Int)) / (w.div : Int) / (w.tapDiv : Int) % 2 == 1

/-- The window that feeds tap `t`. -/
def State.tapWindow? (s : State) (t : Nat) : Option (Nat × Win) :=
  s.windows.findSome? fun i =>
    match s.window? i with
    | some w => if w.tapOn && w.tap == t then some (i, w) else none
    | none => none

/-- The record of tap `t` in the programs in force. -/
def State.tapRec? (s : State) (t : Nat) : Option TapRec :=
  s.programs.findSome? fun p => (planOf (s.body 7 p)).taps.find? fun r => r.tap == t

/-- NPC runs: output 2 of SYNA is launched and enabled (R83, R87). -/
def State.npcClock (s : State) : Bool := s.synaOut 2

/-- The shared port of tensor memory carries what may delay a running run (R354, R392): its duration is then not that of
R392 alone. -/
def State.contend (s : State) : State :=
  s.withNpc { s.npc with runs := s.npc.runs.map fun r => if r.phase == .running then { r with delayed := true } else r }

/-- Output row `k` of a window reaches its tap: a complete block of rows is written (R359, R360). -/
def State.tapRows (s : State) (i : Nat) (w : Win) (k : Nat) (f : Frame) : State :=
  let n := 2 ^ (w.tapScale + 1)
  if !s.tapTakes i w f.number || (k + 1) % n != 0 then s
  else
    match s.tapRec? w.tap, (List.range n).mapM fun j => (s.outRow f w (k + 1 - n + j)).map List.toArray with
    | some t, some rows =>
      let buf := if s.tapOdd i w f.number then t.buf1 else t.buf0
      s.contend.tensorPut (buf + ((k + 1) / n - 1) * t.w * 4) (tapRow w.format w.tapScale rows t.w)
    | _, _ => s

/-! ### Runs -/

/-- Runs that hold their arrays. -/
def Run.holds (r : Run) : Bool := r.phase == .running || r.phase == .halted

/-- Run `a` ranks ahead of run `b` (R362). -/
def Run.ahead (a b : Run) : Bool := decide (a.frame < b.frame) || (a.frame == b.frame && decide (a.prog < b.prog))

/-- NPC_STATUS and NPC_DBG_HALTED follow the runs. -/
def State.showNpc (s : State) : State :=
  let held := s.npc.runs.filter Run.holds
  let busy := maskOf (held.flatMap fun r => r.plan.arrays)
  let low := (setBitsOf 4 busy).headD 0
  let prog := match held.find? fun r => r.plan.arrays.contains low with | some r => r.prog | none => 0
  let ready := min 31 (s.npc.runs.filter fun r => r.phase == .ready).length
  (((s.put NPC_STATUS_busy busy).put NPC_STATUS_prog prog).put NPC_STATUS_ready ready).put NPC_DBG_HALTED_halted
    (maskOf ((s.npc.runs.filter fun r => r.phase == .halted).map (·.prog)))

/-- The runs replaced. -/
def State.setRuns (s : State) (rs : List Run) : State := (s.withNpc { s.npc with runs := rs }).showNpc

/-- Run `r` replaced by `q` (same program and frame). -/
def State.setRun (s : State) (q : Run) : State :=
  s.setRuns (s.npc.runs.map fun r => if r.prog == q.prog && r.frame == q.frame then q else r)

/-- The oldest run of program `p` in a phase. -/
def State.runIn? (s : State) (p : Nat) (ph : RunPhase) : Option Run :=
  s.npc.runs.find? fun r => r.prog == p && r.phase == ph

/-- The runs that a frame's readout start creates: one per program whose taps take the frame (R356, R362). -/
def State.makeRuns (s : State) (f : Frame) : State :=
  let rs := s.programs.filterMap fun p =>
    let b := s.body 7 p
    let ws := (planOf b).taps.map fun t => s.tapWindow? t.tap
    let takes := ws.all fun x => match x with | some (i, w) => s.tapTakes i w f.number | none => false
    let odd := (List.range ws.length).filter fun t =>
      match ws.getD t none with | some (i, w) => s.tapOdd i w f.number | none => false
    if takes ∧ !ws.isEmpty then some { prog := p, frame := f.number, body := b, odd := odd : Run } else none
  s.setRuns (s.npc.runs ++ rs)

/-- The flags of frame `f` over the tap windows of a run (R377). -/
def State.runFlags (s : State) (r : Run) (f : Frame) : Nat :=
  r.plan.taps.foldl
    (fun a t => match s.tapWindow? t.tap with | some (_, w) => lor a (s.windowFlags f w) | none => a) 0

/-- SYS cycles that `n` PIX cycles last (R96). -/
def State.pixCycles (s : State) (n : Nat) : Nat :=
  n * s.lget (CLK_SYNA_OUT_CFG_div 0) / s.lget (CLK_SYNA_OUT_CFG_div 4)

/-- What the readout end of frame `f` fixes for its runs: deadline, parameters, flags (R363, R364, R377). -/
def State.endRuns (s : State) (f : Frame) : State :=
  let d := s.cycle + s.pixCycles f.minPix
  let ps := (List.range 16).map fun n => s.lget (NPC_PARAM_value n)
  s.setRuns (s.npc.runs.map fun r =>
    if r.frame = f.number then { r with deadline := some d, params := some ps, flags := some (s.runFlags r f) } else r)

/-- The SYS cycles from now to the deadline of a run. -/
def State.slack (s : State) (r : Run) : Nat :=
  match r.deadline with
  | some d => d - s.cycle
  | none => match s.sht.cur with | some f => s.pixCycles ((f.slots - s.sht.slot) * f.rowPix + f.minPix) | none => 0

/-- A load of NPC_DATA is written once no run of a frame before its boundary remains (R134). -/
def State.npcLoads (s : State) : State :=
  let due := s.npc.loads.filter fun l => !(s.npc.runs.any fun r => decide (r.frame < l.1))
  let s1 := due.foldl (fun s l => s.tensorPut l.2.1 l.2.2) s
  s1.withNpc { s1.npc with loads := s1.npc.loads.filter fun l => s.npc.runs.any fun r => decide (r.frame < l.1) }

/-- A detection packet: full, or short where its ring has no room (R376, R505). -/
def State.detection (s : State) (r : Run) (cause flags cycles : Nat) (records : List Byte) : State :=
  let n := r.plan.ring
  let g := s.ring n
  let fl := flags + 2 ^ 6 * b2n r.sat + 2 ^ 8 * b2n g.recfg
  let head valid len := leBytes 4 (r.prog + 2 ^ 8 * cause + 2 ^ 16 * valid) ++ leBytes 4 fl ++ leBytes 4 len ++
    leBytes 4 cycles
  let s1 := s.setRing n { g with recfg := false }
  if 36 + records.length ≤ s.spoolFree n then
    s1.build n 5 (b2n g.recfg) r.frame 0 (head (b2n (cause == 0)) records.length ++ records) r.plan.refRing
  else
    let s2 := s1.setRing n { s1.ring n with reserved := g.reserved - 36 }
    (s2.build n 5 (b2n g.recfg + 8) r.frame 0 (head 0 0) r.plan.refRing).hwSet RING_IRQ_STAT_short

/-- A run ends with its cause, 0 when valid (R365, R376 to R379): its packet, its registers, its arrays. A run that END ends
lasts the cycles of R392; where it waited, halted or met contention, or where its deadline or an exception ends it, a
number of cycles that the spec does not state comes on top (notes/assumptions/2.md). Its frame's flags are those gathered
until now, where the readout still runs (R377). -/
def State.finishRun (s : State) (r : Run) (cause : Nat) : State :=
  let flags := match r.flags, s.sht.cur with
    | some x, _ => x
    | none, some f => s.runFlags r (s.gather f)
    | none, none => 0
  let v := s.free
  let started := r.holds
  let open_ := started && (r.delayed || cause != 0)
  let cycles := if open_ then (r.issue + v.1) % 2 ^ 32 else if started then r.issue % 2 ^ 32 else 0
  let s0 := if open_ then v.2 else s
  let s1 := s0.detection r cause flags cycles (if cause = 0 then r.payload else [])
  let p := r.prog
  let s2 := ((s1.put (NPC_PROG_STAT_cause p) cause).put (NPC_PROG_STAT_sat p) (b2n r.sat)).put
    (NPC_PROG_FRAME_frame p) r.frame
  let s3 := if cause = 0 then (s2.put (NPC_PROG_TIME_cycles p) cycles).hwSet NPC_IRQ_STAT_run_done
    else ((s2.bump (NPC_PROG_STAT_invalid p)).hwSet NPC_IRQ_STAT_invalid).count 114
  let s4 := if started then
      s3.put (NPC_PROG_SLACK_min_slack p) (min (s3.get (NPC_PROG_SLACK_min_slack p)) (s.slack r))
    else s3
  let s5 := if r.sat then s4.hwSet NPC_IRQ_STAT_saturated else s4
  (s5.setRuns (s5.npc.runs.filter fun q => !(q.prog == p && q.frame == r.frame))).npcLoads

/-- Tap record `tap` of a run holds every row of the run's frame (R361). -/
def State.tapWhole (s : State) (r : Run) (tap : Nat) : Bool :=
  match r.plan.taps[tap]? with
  | none => false
  | some t =>
    match s.tapWindow? t.tap with
    | some (i, w) => (match s.winFrame? i with | some x => x.number == r.frame && x.next == w.outH | none => false)
    | none => false

/-- TAP_COMPLETE: tap record `tap` of program `prog` is complete for the frame its window takes; the run of that frame
becomes ready with its last tap (R361, R362). -/
def execTapComplete (prog tap : Nat) (s : State) : Host.Outcome State Fault Refusal :=
  .next (match s.npc.runs.find? fun r =>
      r.prog == prog && r.phase == .waiting && s.tapWhole r tap && !r.taps.contains tap with
  | none => s
  | some r =>
    let q := { r with taps := tap :: r.taps }
    if !s.npcClock then s
    else if q.taps.length = q.plan.taps.length then
      s.setRun { q with phase := .ready, gated := !s.on PWR_BLOCK_EN_npc }
    else s.setRun q)

/-- Runs of program `p` are disabled: NPC_CTRL.en or its NPC_PROG_EN bit is in force at 0, or NPC is gated. -/
def State.runDisabled (s : State) (r : Run) : Bool :=
  !s.lon NPC_CTRL_en || r.gated || (s.has 7 r.prog && !bit (s.lget NPC_PROG_EN_en) r.prog)

/-- RUN_START: the first ready run in rank starts when all its arrays are free (R362, R381); a disabled one sends its
packet invalid with cause 0x73. Nothing starts while NPC stands still (R83, R87). -/
def execRunStart (prog : Nat) (s : State) : Host.Outcome State Fault Refusal :=
  .next (match s.runIn? prog .ready with
  | none => s
  | some r =>
    let first := !(s.npc.runs.any fun q => q.phase == .ready && q.ahead r)
    let data := !(s.npc.loads.any fun l => decide (l.1 ≤ r.frame))
    let free := !(s.npc.runs.any fun q => q.holds && q.plan.arrays.any r.plan.arrays.contains)
    if !first || !data || !s.npcClock then s
    else if s.runDisabled r then s.finishRun r 0x73
    else if free then s.setRun { r with phase := .running, satTrap := s.lon NPC_CTRL_sat_trap }
    else s)

/-- RUN_DEADLINE: the deadline of the oldest frame whose readout has ended falls (R363, R409). -/
def execRunDeadline (prog : Nat) (s : State) : Host.Outcome State Fault Refusal :=
  .next (match s.npc.runs.find? fun r => r.prog == prog && r.deadline.isSome with
  | none => s
  | some r =>
    match r.phase with
    | .waiting => s.finishRun r 0x72
    | .ready => s.finishRun r 0x71
    | .running => s.finishRun r 0x70
    | .halted => s.finishRun r r.cause)

/-! ### Exceptions -/

/-- The exception record (R405 to R407) and its interrupt. -/
def State.recordExc (s : State) (r : Run) (cause addr : Nat) (trap halt : Bool) : State :=
  let p := r.prog
  let s1 := (((s.put (NPC_EXC_INFO_cause p) cause).put (NPC_EXC_INFO_trap p) (b2n trap)).put
    (NPC_EXC_INFO_mode p) r.mode).put (NPC_EXC_INFO_pending p) (b2n r.pendingMode.isSome)
  let s2 := ((s1.put (NPC_EXC_INFO_depth p) r.loops.length).put (NPC_EXC_INFO_halt p) (b2n halt)).put
    (NPC_EXC_INFO_pc p) r.pc
  let s3 := (List.range 3).foldl
    (fun s l => s.put (NPC_EXC_LOOP_count p l) (match r.loops[l]? with | some x => x.count | none => 0)) s2
  ((s3.put (NPC_EXC_ADDR_addr p) (if cause = 0x77 ∨ cause = 0x78 then addr else 0)).put
    (NPC_EXC_FRAME_frame p) r.frame).hwSet NPC_IRQ_STAT_exception

/-- A run raises an exception (R403, R408, R409, R411). `r` is the run as it stood before the instruction for a fault,
with the instruction's changes made for a trap. -/
def State.raiseExc (s : State) (r : Run) (cause addr : Nat) (trap : Bool) : State :=
  let halt := s.on NPC_DBG_halt_en && cause != 0x7D
  let s1 := s.recordExc r cause addr trap halt
  if halt then (s1.setRun { r with phase := .halted, cause := cause, trapped := trap }).hwSet NPC_IRQ_STAT_halted
  else s1.finishRun r cause

/-- The loop-back decision at pc (R395), over the active loops, innermost first: the innermost that ends there decides, and
where it is popped the next one outward that ends there; the loops that remain, and the next pc. -/
def loopBack (pc : Nat) : List Loop → List Loop × Nat
  | [] => ([], pc + 1)
  | l :: outer =>
    if l.last ≠ pc then
      let d := loopBack pc outer
      (l :: d.1, d.2)
    else if 1 < l.count then ({ l with count := l.count - 1 } :: outer, l.first)
    else loopBack pc outer

/-- The run after an instruction that completed: the pending mode comes into force (R398) and `setMode` becomes pending;
pc goes to `next`, or through the loop-back decisions (R395, R397). -/
def Run.advanced (r : Run) (next : Option Nat) (setMode : Option Nat) : Run :=
  let r1 : Run := match r.pendingMode with | some m => { r with mode := m, pendingMode := none } | none => r
  let r2 : Run := match setMode with | some m => { r1 with pendingMode := some m } | none => r1
  match next with
  | some pc => { r2 with pc := pc }
  | none => let b := loopBack r2.pc r2.loops.reverse; { r2 with loops := b.1.reverse, pc := b.2 }

/-- The instruction at pc has completed: the run goes on, and a pc past the code is an exception (R395). -/
def State.advance (s : State) (r : Run) (next : Option Nat) (setMode : Option Nat) : State :=
  let q := r.advanced next setMode
  if q.plan.words ≤ q.pc then (s.setRun q).raiseExc q 0x75 0 false else s.setRun q

/-! ### Operands -/

/-- Register x`i`; x0 reads 0 (R382). -/
def Run.xr (r : Run) (i : Nat) : Nat := if i = 0 then 0 else nth r.x i

/-- Register x`i` written; writes to x0 are discarded (R382). -/
def Run.setX (r : Run) (i v : Nat) : Run := if i = 0 then r else { r with x := r.x.set i (v % 2 ^ 32) }

/-- The regions that a program may use (R385): its tap buffers, for reading, and its scratch region. -/
def Run.regions (r : Run) (write : Bool) : List (Nat × Nat) :=
  let p := r.plan
  (if write then [] else p.taps.flatMap fun t => [(t.buf0, t.bytes), (t.buf1, t.bytes)]) ++ [(p.scratch, p.scratchLen)]

/-- The first byte of `[lo, hi]` that fails R385, if any: the extent must lie within one region. -/
def Run.extent (r : Run) (write : Bool) (lo hi : Int) : Option Nat :=
  let within := fun (g : Nat × Nat) (a : Int) => decide ((g.1 : Int) ≤ a) && decide (a < ((g.1 + g.2 : Nat) : Int))
  match (r.regions write).find? fun g => within g lo with
  | none => some (ofSigned 32 lo)
  | some g => if within g hi then none else some (g.1 + g.2)

/-- The lowest and highest byte of `n` rows of `len` bytes at a signed stride. -/
def rowsExtent (base : Nat) (stride : Int) (n len : Nat) : Int × Int :=
  let last : Int := stride * ((n : Int) - 1)
  ((base : Int) + min 0 last, (base : Int) + max 0 last + (len : Int) - 1)

/-- The physical tiles that a tile index names, or none where it is out of range (R368, R369, R387). -/
def Run.tiles (r : Run) (i : Nat) : Option (List Nat) :=
  let p := r.plan
  let m := p.arrays.length
  if r.mode = 0 then
    if i < p.tileCount then some (p.arrays.map fun a => 64 * a + (p.tileFirst + i)) else none
  else if i < m * p.tileCount then some [64 * nth p.arrays (i % m) + (p.tileFirst + i / m)]
  else none

/-- The open group at a physical tile. -/
def Run.group? (r : Run) (t : Nat) : Option Group := r.groups.find? fun g => g.tile == t

/-- A group opened or replaced. -/
def Run.setGroup (r : Run) (g : Group) : Run :=
  { r with groups := (r.groups.filter fun h => h.tile != g.tile) ++ [g] }

/-- Open groups on an array. -/
def Run.openOn (r : Run) (a : Nat) : Nat := (r.groups.filter fun g => g.tile / 64 == a).length

/-- What an instruction does: the run after it, bytes it writes, accumulator tiles it writes whole, a pc other than the next, a
mode it makes pending, whether it clamped, a compute event line, and whether the run ends. -/
structure Effect where
  run : Run
  writes : List (Nat × List Byte) := []
  tiles : List Nat := []
  next : Option Nat := none
  setMode : Option Nat := none
  clamped : Bool := false
  line : Option Nat := none
  ended : Bool := false
deriving DecidableEq, Repr

/-- An instruction's outcome: its effect, or a fault with its address. -/
abbrev Issue := Except (Nat × Nat) Effect

/-! ### Scalar instructions -/

/-- The functions of SALU and SALUI; 12 to 15 are illegal. -/
def saluF (func a b : Nat) : Option Nat :=
  let i := toSigned 32 a
  let j := toSigned 32 b
  match func with
  | 0 => some (a + b)
  | 1 => some (ofSigned 32 (i - j))
  | 2 => some (a * b)
  | 3 => some (land a b)
  | 4 => some (lor a b)
  | 5 => some (lxor a b)
  | 6 => some (a * 2 ^ (b % 32))
  | 7 => some (ofSigned 32 (i / (2 ^ (b % 32) : Nat)))
  | 8 => some (a / 2 ^ (b % 32))
  | 9 => some (b2n (decide (i < j)))
  | 10 => some (if i ≤ j then a else b)
  | 11 => some (if i ≤ j then b else a)
  | _ => none

/-- One cycle of the sequencer. -/
def Run.tick (r : Run) (n : Nat) : Run := { r with issue := r.issue + n }

/-- SALU and SALUI with second operand `t`. -/
def Run.alu (r : Run) (w t : Nat) : Issue :=
  match saluF (bits w 42 4) (r.xr (bits w 50 4)) t with
  | none => .error (0x74, 0)
  | some v => .ok { run := (r.setX (bits w 54 4) v).tick 1 }

/-- The value that GET reads (R384); `live` gives the parameters while the readout of the frame has not ended. -/
def Run.getValue (r : Run) (live : List Nat) (sel n : Nat) : Option Nat :=
  let p := r.plan
  match sel, p.taps[n]? with
  | 0, _ => if n < 16 then some (nth (r.params.getD live) n) else none
  | 1, some t => some (if r.odd.contains n then t.buf1 else t.buf0)
  | 4, some t => some t.w
  | 5, some t => some t.h
  | 2, _ => if n = 0 then some p.scratch else none
  | 3, _ => if n = 0 then some p.scratchLen else none
  | 6, _ => if n = 0 then some p.arrays.length else none
  | 7, _ => if n = 0 then some p.tileCount else none
  | _, _ => none

/-- The bytes and the signedness of a size code. -/
def sizeBytes (size : Nat) : Nat := nth [1, 1, 2, 2, 4] size

/-- The address of LD and ST, modulo 2^32 (R382). -/
def Run.memAddr (r : Run) (w : Nat) : Int := ((r.xr (bits w 50 4) : Int) + toSigned 16 (bits w 0 16)) % 2 ^ 32

/-- The checks of LD and ST: alignment, then the regions (R385, R404). -/
def Run.memCheck (r : Run) (w : Nat) (write : Bool) : Option (Nat × Nat) :=
  let n := sizeBytes (bits w 43 3)
  let a := r.memAddr w
  if a % (n : Int) ≠ 0 then some (0x78, ofSigned 32 a)
  else (r.extent write a (a + n - 1)).map fun x => (0x77, x)

/-- The fault of an uncorrectable error in a memory of R652: cause 0x7D, with the memory above it. -/
def eccFault (memory : Nat) : Nat := 0x7D + 2 ^ 8 * memory

/-- An error of tensor memory in the bytes read raises 0x7D (R411). -/
def State.eccCheck (s : State) (xs : List (Nat × Nat)) : Option (Nat × Nat) :=
  xs.findSome? fun x => (s.badAt 1 x.1 x.2).map fun a => (eccFault 1, a)

/-- LD. -/
def State.npcLd (s : State) (r : Run) (w : Nat) : Issue :=
  let size := bits w 43 3
  if 4 < size then .error (0x74, 0)
  else
    match r.memCheck w false with
    | some e => .error e
    | none =>
      let n := sizeBytes size
      let a := (r.memAddr w).toNat
      match s.eccCheck [(a, n)] with
      | some e => .error e
      | none =>
        let v := leNat (s.tensorRead a n)
        let v' := if size % 2 = 1 then ofSigned 32 (toSigned (8 * n) v) else v
        .ok { run := { r.setX (bits w 54 4) v' with issue := max r.issue r.arrayFrom + 2 } }

/-- ST. -/
def Run.npcSt (r : Run) (w : Nat) : Issue :=
  let size := bits w 43 3
  if 4 < size ∨ size % 2 = 1 then .error (0x74, 0)
  else
    match r.memCheck w true with
    | some e => .error e
    | none =>
      .ok { run := { r with issue := max r.issue r.arrayFrom + 2 }
            writes := [((r.memAddr w).toNat, leBytes (sizeBytes size) (r.xr (bits w 46 4)))] }

/-- LOOP (R393, R394): the count is a sum modulo 2^32 (R382), taken as signed. -/
def Run.npcLoop (r : Run) (w : Nat) : Issue :=
  let last := r.pc + bits w 32 12 + 1
  let outside : Bool := r.loops.any fun l => decide (l.first ≤ r.pc) && decide (r.pc ≤ l.last) && decide (l.last < last)
  if 3 ≤ r.loops.length ∨ outside ∨ r.plan.words ≤ last then .error (0x76, 0)
  else
    let count := toSigned 32 ((r.xr (bits w 50 4) + bits w 0 32) % 2 ^ 32)
    if count ≤ 0 then .ok { run := r.tick 1, next := some (last + 1) }
    else
      .ok { run := { r.tick 1 with loops := r.loops ++ [{ first := r.pc + 1, last := last, count := count.toNat }] }
            next := some (r.pc + 1) }

/-- The loops that survive a branch to `t` (R396). -/
def keptLoops (t : Nat) (ls : List Loop) : List Loop := ls.takeWhile fun l => decide (l.first ≤ t) && decide (t ≤ l.last)

/-- BR (R396). -/
def Run.npcBr (r : Run) (w : Nat) : Issue :=
  let v := toSigned 32 (r.xr (bits w 50 4))
  let taken := match bits w 43 3 with
    | 0 => some true
    | 1 => some (v == 0)
    | 2 => some (v != 0)
    | 3 => some (decide (v < 0))
    | 4 => some (decide (0 ≤ v))
    | _ => none
  match taken with
  | none => .error (0x74, 0)
  | some false => .ok { run := r.tick 1 }
  | some true =>
    let t : Int := (r.pc : Int) + toSigned 16 (bits w 0 16)
    if t < 0 ∨ (r.plan.words : Int) ≤ t then .error (0x75, 0)
    else .ok { run := { r.tick 1 with loops := keptLoops t.toNat r.loops }, next := some t.toNat }

/-! ### Matrix steps and post-operations -/

/-- One product enters a sum (R366): the sum and the sat flag. -/
def accStep (s : Int × Bool) (p : Int) : Int × Bool :=
  let x := s.1 + p
  if 2147483647 < x then (2147483647, true) else if x < -2147483648 then (-2147483648, true) else (x, s.2)

/-- Bytes as int8 or uint8. -/
def operand (signed : Bool) (bs : List Byte) : Array Int :=
  (bs.map fun b => if signed then b.toInt else (b.toNat : Int)).toArray

/-- A matrix step into a group from B columns `col` to `col` + 31 (R366): the group, and whether a product clamped. -/
def Group.accumulate (g : Group) (a b : Array (Array Int)) (k col : Nat) : Group × Bool :=
  let cell i j := (List.range k).foldl
    (fun s t => accStep s ((a.getD i #[]).getD t 0 * (b.getD t #[]).getD (col + j) 0))
    (g.sums.getD (32 * i + j) 0, false)
  let out := (List.range 32).flatMap fun i => (List.range 32).map (cell i)
  ({ g with sums := out.map (·.1), sat := g.sat || out.any (·.2) }, out.any (·.2))

/-- The byte extents of `n` rows of `len` bytes. -/
def rowExtents (base : Nat) (stride : Int) (n len : Nat) : List (Nat × Nat) :=
  (List.range n).map fun (i : Nat) => (((base : Int) + stride * (i : Int)).toNat, len)

/-- An accumulator word of a tile holds an error (R411). -/
def State.accBad (s : State) (ts : List Nat) : Option (Nat × Nat) :=
  ts.findSome? fun t => (s.badAt 2 (4096 * t) 4096).map fun a => (eccFault 2, a)

/-- The tiles of MMUL and DISCARD: index x[xi] + tidx. -/
def Run.indexTiles (r : Run) (w : Nat) : Option (List Nat) :=
  r.tiles ((r.xr (bits w 38 4) + bits w 30 8) % 2 ^ 32)

/-- The faults of MMUL (R370, R387, R404): tile, 17th group, then operand A and operand B. -/
def Run.mmulCheck (r : Run) (w : Nat) (ts : List Nat) : Option (Nat × Nat) :=
  let k := bits w 18 12 + 1
  let op := bit w 17
  let ea := rowsExtent (r.xr (bits w 54 4)) (toSigned 32 (r.xr (bits w 50 4))) 32 k
  let eb := rowsExtent (r.xr (bits w 46 4)) (toSigned 32 (r.xr (bits w 42 4))) k (32 * ts.length)
  if ts.any fun t => (r.group? t).isSome == op then some (0x79, 0)
  else if op && ts.any fun t => decide (16 ≤ r.openOn (t / 64)) then some (0x7A, 0)
  else
    match r.extent false ea.1 ea.2, r.extent false eb.1 eb.2 with
    | some x, _ => some (0x77, x)
    | none, some x => some (0x77, x)
    | none, none => none

/-- MMUL (R366 to R370, R386). -/
def State.npcMmul (s : State) (r : Run) (w : Nat) : Issue :=
  match r.indexTiles w with
  | none => .error (0x79, 0)
  | some ts =>
    match r.mmulCheck w ts with
    | some e => .error e
    | none =>
      let k := bits w 18 12 + 1
      let xa := r.xr (bits w 54 4)
      let sa := toSigned 32 (r.xr (bits w 50 4))
      let xb := r.xr (bits w 46 4)
      let sb := toSigned 32 (r.xr (bits w 42 4))
      let ra := rowExtents xa sa 32 k
      let rb := rowExtents xb sb k (32 * ts.length)
      match s.eccCheck (ra ++ rb), if bit w 17 then none else s.accBad ts with
      | some e, _ => .error e
      | none, some e => .error e
      | none, none =>
        let a := (ra.map fun x => operand (bit w 16) (s.tensorRead x.1 x.2)).toArray
        let b := (rb.map fun x => operand (bit w 15) (s.tensorRead x.1 x.2)).toArray
        let start := ts.foldl (fun m t => max m (nth r.busyFrom (t / 64))) (max r.issue r.postFrom)
        let old t := if bit w 17 then ({ tile := t, sums := List.replicate 1024 0 } : Group)
          else (r.group? t).getD { tile := t, sums := List.replicate 1024 0 }
        let new := (ts.zip (List.range ts.length)).map fun x => (old x.1).accumulate a b k (32 * x.2)
        let q := new.foldl (fun q g => q.setGroup { g.1 with postFrom := start + k + 37 }) r
        let clamp := new.any (·.2)
        .ok { run := { q with
                issue := start + 1, arrayFrom := max r.arrayFrom (start + k + 4), sat := r.sat || clamp
                busyFrom := ts.foldl (fun l t => l.set (t / 64) (start + k + 4)) r.busyFrom }
              tiles := ts, clamped := clamp }

/-- Rounding half to even (R371). -/
def rhe (x : Int) (n : Nat) : Int :=
  if n = 0 then x
  else
    let f := x / (2 ^ n : Nat)
    let d := x - f * (2 ^ n : Nat)
    let h : Int := (2 ^ (n - 1) : Nat)
    if h < d ∨ (d = h ∧ f % 2 = 1) then f + 1 else f

/-- A clamp, and whether it acted. -/
def clampTo (lo hi x : Int) : Int × Bool := if x < lo then (lo, true) else if hi < x then (hi, true) else (x, false)

/-- sat32 (R371). -/
def sat32 (x : Int) : Int × Bool := clampTo (-2147483648) 2147483647 x

/-- The fields of a post-operation that an element needs (R372): element-wise operation, M_r and S_r, activation table
if on, zero point, output type. -/
structure PostCfg where
  ew : Nat
  mr : Int
  sr : Nat
  table : Option (Array Int)
  z : Int
  otype : Nat
deriving DecidableEq, Repr

/-- The limits of an output type. -/
def outLimits (otype : Nat) : Int × Int :=
  match otype with
  | 0 => (-128, 127)
  | 1 => (0, 255)
  | 2 => (-32768, 32767)
  | _ => (-2147483648, 2147483647)

/-- One element of a post-operation (R372): its output, and whether any stage clamped (R374). -/
def postElement (c : PostCfg) (s m b : Int) (sj : Nat) (r : Int) : Int × Bool :=
  let u0 := sat32 (rhe (s * m) sj)
  let u1 := match c.ew with
    | 1 => let y := sat32 (u0.1 + rhe (r * c.mr) c.sr); (y.1, u0.2 || y.2)
    | 2 => let y := sat32 (rhe (u0.1 * r) c.sr); (y.1, u0.2 || y.2)
    | _ => u0
  let v := sat32 (u1.1 + b)
  let w := match c.table with
    | some t => let i := clampTo (-128) 127 v.1; (t.getD (i.1 + 128).toNat 0, i.2)
    | none => (v.1, false)
  let o := sat32 (w.1 + c.z)
  let l := outLimits c.otype
  let n := clampTo l.1 l.2 o.1
  (n.1, u1.2 || v.2 || w.2 || o.2 || n.2)

/-- The byte sizes of output and second tensor types. -/
def outSize (otype : Nat) : Nat := nth [1, 1, 2, 4] otype
def rSize (rtype : Nat) : Nat := nth [1, 1, 2] rtype

/-- POST is illegal where a type or operation is, or where a field of an unused second tensor is not 0 (R388). -/
def postIllegal (w : Nat) : Bool :=
  let ew := bits w 2 2
  ew == 3 || bits w 0 2 == 3 ||
    (ew == 0 && (bits w 40 4 != 0 || bits w 36 4 != 0 || bits w 32 4 != 0 || bits w 6 6 != 0 || bits w 0 2 != 0))

/-- The first extent of POST that fails: output, parameters, second tensor. -/
def Run.postExtents (r : Run) (w cols : Nat) : Option (Nat × Nat) :=
  let o := rowsExtent (r.xr (bits w 52 4)) (toSigned 32 (r.xr (bits w 48 4))) 32 (cols * outSize (bits w 4 2))
  let p := rowsExtent (r.xr (bits w 44 4)) 0 1 (12 * cols)
  let t := rowsExtent (r.xr (bits w 40 4)) (toSigned 32 (r.xr (bits w 36 4))) 32 (cols * rSize (bits w 0 2))
  let second := if bits w 2 2 = 0 then none else r.extent false t.1 t.2
  ((r.extent true o.1 o.2).or ((r.extent false p.1 p.2).or second)).map fun x => (0x77, x)

/-- The output rows of POST over groups `gs`, each 32 columns of the block: bytes and whether any element clamped. -/
def State.postRows (s : State) (r : Run) (w : Nat) (gs : List Group) : List (List Byte × Bool) :=
  let cols := 32 * gs.length
  let ew := bits w 2 2
  let rt := bits w 0 2
  let c : PostCfg :=
    { ew := ew, mr := toSigned 32 (r.xr (bits w 32 4)), sr := bits w 6 6
      table := if bit w 57 then some r.table.toArray else none, z := toSigned 16 (bits w 12 16), otype := bits w 4 2 }
  let prm := s.tensorRead (r.xr (bits w 44 4)) (12 * cols)
  let ps := ((List.range cols).map fun j =>
    (toSigned 32 (leAt prm (12 * j) 4), toSigned 32 (leAt prm (12 * j + 4) 4), min 63 (leAt prm (12 * j + 8) 1))).toArray
  let sums := (gs.map fun g => g.sums.toArray).toArray
  let base := r.xr (bits w 40 4)
  let stride := toSigned 32 (r.xr (bits w 36 4))
  (List.range 32).map fun (i : Nat) =>
    let rr := if ew = 0 then [] else s.tensorRead ((base : Int) + stride * (i : Int)).toNat (cols * rSize rt)
    let outs := (List.range cols).map fun (j : Nat) =>
      let p := ps.getD j (0, 0, 0)
      let raw := leAt rr (j * rSize rt) (rSize rt)
      let rv : Int := if rt = 1 then raw else toSigned (8 * rSize rt) raw
      postElement c ((sums.getD (j / 32) #[]).getD (32 * i + j % 32) 0) p.1 p.2.1 p.2.2 rv
    (outs.flatMap fun o => leBytes (outSize c.otype) (ofSigned (8 * outSize c.otype) o.1), outs.any (·.2))

/-- POST (R371 to R374, R388, R389). -/
def State.npcPost (s : State) (r : Run) (w : Nat) : Issue :=
  if postIllegal w then .error (0x74, 0)
  else
    match r.tiles (r.xr (bits w 28 4)) with
    | none => .error (0x79, 0)
    | some ts =>
      match ts.mapM r.group?, r.postExtents w (32 * ts.length) with
      | none, _ => .error (0x79, 0)
      | some _, some e => .error e
      | some gs, none =>
        let cols := 32 * ts.length
        let second := if bits w 2 2 = 0 then []
          else rowExtents (r.xr (bits w 40 4)) (toSigned 32 (r.xr (bits w 36 4))) 32 (cols * rSize (bits w 0 2))
        match s.eccCheck ((r.xr (bits w 44 4), 12 * cols) :: second), s.accBad ts with
        | some e, _ => .error e
        | none, some e => .error e
        | none, none =>
          let rows := s.postRows r w gs
          let clamp := rows.any (·.2)
          let out := r.xr (bits w 52 4)
          let stride := toSigned 32 (r.xr (bits w 48 4))
          let len := 8 + max 32 (ceilDiv (32 * cols * outSize (bits w 4 2)) 64)
          let from0 := gs.foldl (fun m g => max m g.postFrom) r.issue
          let start := ts.foldl (fun m t => max m (nth r.busyFrom (t / 64))) from0
          .ok { run := { r with
                  groups := if bit w 56 then r.groups else r.groups.filter fun g => !ts.contains g.tile
                  issue := start + 1, postFrom := max r.postFrom (start + len)
                  arrayFrom := max r.arrayFrom (start + len), sat := r.sat || clamp }
                writes := (rows.zip (List.range 32)).map fun x => (((out : Int) + stride * x.2).toNat, x.1.1)
                clamped := clamp }

/-- DISCARD (R389, R390). -/
def Run.npcDiscard (r : Run) (w : Nat) : Issue :=
  match r.indexTiles w with
  | none => .error (0x79, 0)
  | some ts =>
    if ts.any fun t => (r.group? t).isNone then .error (0x79, 0)
    else
      let start := ts.foldl (fun m t => max m (nth r.busyFrom (t / 64))) r.issue
      .ok { run := { r with
              groups := r.groups.filter fun g => !ts.contains g.tile
              issue := start + 1, arrayFrom := max r.arrayFrom (start + 1) } }

/-- TLOAD (R375, R390). -/
def State.npcTload (s : State) (r : Run) (w : Nat) : Issue :=
  let a := r.xr (bits w 50 4)
  match r.extent false a (a + 511 : Nat), s.eccCheck [(a, 512)] with
  | some x, _ => .error (0x77, x)
  | none, some e => .error e
  | none, none =>
    let bs := s.tensorRead a 512
    let start := max r.issue r.arrayFrom
    .ok { run := { r with
            table := (List.range 256).map fun i => toSigned 16 (leAt bs (2 * i) 2)
            issue := start + 16, arrayFrom := start + 16 } }

/-- EMIT (R391): its source lies in the scratch region. -/
def State.npcEmit (s : State) (r : Run) (w : Nat) : Issue :=
  let a := r.xr (bits w 50 4)
  let n := r.xr (bits w 46 4)
  let bad := if n = 0 then none else r.extent true a ((a : Int) + n - 1)
  match bad with
  | some x => .error (0x77, x)
  | none =>
    if r.plan.maxPayload - 16 < r.payload.length + n then .error (0x7C, 0)
    else
      match s.eccCheck [(a, n)] with
      | some e => .error e
      | none =>
        .ok { run := { r with
                payload := r.payload ++ s.tensorRead a n
                issue := max r.issue r.arrayFrom + 4 + ceilDiv n 64 } }

/-! ### Issue -/

/-- The bits that an opcode names (R383); an unlisted opcode has none. -/
def opMask (op : Nat) : Option Nat :=
  let f (xs : List (Nat × Nat)) := xs.foldl (fun a x => a + (2 ^ x.2 - 1) * 2 ^ x.1) 0
  match op with
  | 0x00 => some 0
  | 0x01 => some 1
  | 0x02 => some (f [(54, 4), (50, 4), (46, 4), (42, 4)])
  | 0x03 => some (f [(54, 4), (50, 4), (42, 4), (0, 32)])
  | 0x04 => some (f [(54, 4), (42, 4), (0, 8)])
  | 0x05 => some (f [(54, 4), (50, 4), (43, 3), (0, 16)])
  | 0x06 => some (f [(50, 4), (46, 4), (43, 3), (0, 16)])
  | 0x08 => some (f [(50, 4), (32, 12), (0, 32)])
  | 0x09 => some (f [(50, 4), (43, 3), (0, 16)])
  | 0x0A => some 0
  | 0x10 => some (f [(54, 4), (50, 4), (46, 4), (42, 4), (38, 4), (30, 8), (18, 12), (15, 3)])
  | 0x11 => some (2 ^ 58 - 1)
  | 0x12 => some (f [(38, 4), (30, 8)])
  | 0x13 => some (f [(50, 4)])
  | 0x14 => some (f [(50, 4), (46, 4)])
  | 0x18 => some 7
  | 0x19 => some 7
  | _ => none

/-- A word is illegal by its opcode or a reserved bit (R383). -/
def wordIllegal (w : Nat) : Bool :=
  match opMask (bits w 58 6) with
  | none => true
  | some m => andNot (bits w 0 58) m != 0

/-- The parameters in force now. -/
def State.liveParams (s : State) : List Nat := (List.range 16).map fun n => s.lget (NPC_PARAM_value n)

/-- What the instruction word `w` does to a run (R383 to R396). WAITEV issues once its flag is set. -/
def State.issue (s : State) (r : Run) (w : Nat) : Issue :=
  if wordIllegal w then .error (0x74, 0)
  else
    match bits w 58 6 with
    | 0x00 => .ok { run := r.tick 1 }
    | 0x01 => .ok { run := r.tick 1, setMode := some (bits w 0 1) }
    | 0x02 => r.alu w (r.xr (bits w 46 4))
    | 0x03 => r.alu w (bits w 0 32)
    | 0x04 =>
      match r.getValue s.liveParams (bits w 42 4) (bits w 0 8) with
      | none => .error (0x74, 0)
      | some v => .ok { run := (r.setX (bits w 54 4) v).tick 1 }
    | 0x05 => s.npcLd r w
    | 0x06 => r.npcSt w
    | 0x08 => r.npcLoop w
    | 0x09 => r.npcBr w
    | 0x0A => .ok { run := r.tick 1, ended := true }
    | 0x10 => s.npcMmul r w
    | 0x11 => s.npcPost r w
    | 0x12 => r.npcDiscard w
    | 0x13 => s.npcTload r w
    | 0x14 => s.npcEmit r w
    | 0x18 => .ok { run := { r.tick 1 with waits := none, released := false } }
    | _ => .ok { run := r.tick 1, line := some (bits w 0 3) }

/-- An uncorrectable error that a run reads (R411, R652). -/
def State.runEcc (s : State) (memory addr : Nat) : State := (s.eccBad memory addr 1).eccLog 0x7D memory addr

/-- A run's instruction takes effect (R392, R403 to R411). -/
def State.apply (s : State) (r : Run) (w : Nat) : State :=
  match s.issue r w with
  | .error (cause, addr) =>
    if cause % 2 ^ 8 = 0x7D then (s.runEcc (cause / 2 ^ 8) addr).raiseExc r 0x7D addr false
    else s.raiseExc r cause addr false
  | .ok e =>
    let port := bits w 58 6 == 0x11 && 1 < (s.npc.runs.filter fun q => q.phase == .running).length
    let s0 := if port then s.contend else s
    let s1 := e.tiles.foldl (fun s t => s.clearBad 2 (4096 * t) 4096) (e.writes.foldl (fun s x => s.tensorPut x.1 x.2) s0)
    let s2 := match e.line with | some n => s1.pulse (66 + n) | none => s1
    let q := { e.run with delayed := e.run.delayed || port }
    if e.ended then s2.finishRun q 0
    else if e.clamped && r.satTrap then s2.raiseExc q 0x7B 0 true
    else s2.advance q e.next e.setMode

/-- A WAITEV or SIGEV that holds (R400, R401): the flag is clear and no task has released the run, or the line's last
pulse is of this cycle. -/
def State.holdsAt (s : State) (r : Run) (w : Nat) : Bool :=
  (bits w 58 6 == 0x18 && !r.released && !bit (s.get NPC_FLAGS_flags) (bits w 0 3)) ||
    (bits w 58 6 == 0x19 && s.evf.pulses.contains (66 + bits w 0 3))

/-- The running run of program `p` executes the word at its pc, which must have opcode `op`; with `op` none, the word
must be illegal (R383). It stands still with NPC (R83, R87). -/
def State.npcStep (s : State) (p : Nat) (op : Option Nat) : State :=
  match s.runIn? p .running with
  | none => s
  | some r =>
    let w := codeWord r.body r.pc
    let a := s.codeBase p + 8 * r.pc
    if !s.npcClock || !(match op with | some o => bits w 58 6 == o && !wordIllegal w | none => wordIllegal w) then s
    else if (s.badAt 3 a 8).isSome then (s.runEcc 3 a).raiseExc r 0x7D 0 false
    else if !wordIllegal w && s.holdsAt r w then
      s.setRun { r with waits := if bits w 58 6 = 0x18 then some (bits w 0 3) else r.waits, delayed := true }
    else
      let s1 := if bits w 58 6 = 0x18 ∧ !wordIllegal w ∧ !r.released then
          s.put NPC_FLAGS_flags (setBits (s.get NPC_FLAGS_flags) (bits w 0 3) 1 0)
        else s
      s1.apply r w

/-- The instructions: each executes at the pc of the program's running run. -/
def execNpcNop (prog : Nat) (s : State) : Host.Outcome State Fault Refusal := .next (s.npcStep prog (some 0x00))
def execSetmode (prog : Nat) (s : State) : Host.Outcome State Fault Refusal := .next (s.npcStep prog (some 0x01))
def execSalu (prog : Nat) (s : State) : Host.Outcome State Fault Refusal := .next (s.npcStep prog (some 0x02))
def execSalui (prog : Nat) (s : State) : Host.Outcome State Fault Refusal := .next (s.npcStep prog (some 0x03))
def execGet (prog : Nat) (s : State) : Host.Outcome State Fault Refusal := .next (s.npcStep prog (some 0x04))
def execLd (prog : Nat) (s : State) : Host.Outcome State Fault Refusal := .next (s.npcStep prog (some 0x05))
def execSt (prog : Nat) (s : State) : Host.Outcome State Fault Refusal := .next (s.npcStep prog (some 0x06))
def execLoop (prog : Nat) (s : State) : Host.Outcome State Fault Refusal := .next (s.npcStep prog (some 0x08))
def execBr (prog : Nat) (s : State) : Host.Outcome State Fault Refusal := .next (s.npcStep prog (some 0x09))
def execNpcEnd (prog : Nat) (s : State) : Host.Outcome State Fault Refusal := .next (s.npcStep prog (some 0x0A))
def execMmul (prog : Nat) (s : State) : Host.Outcome State Fault Refusal := .next (s.npcStep prog (some 0x10))
def execPost (prog : Nat) (s : State) : Host.Outcome State Fault Refusal := .next (s.npcStep prog (some 0x11))
def execDiscard (prog : Nat) (s : State) : Host.Outcome State Fault Refusal := .next (s.npcStep prog (some 0x12))
def execTload (prog : Nat) (s : State) : Host.Outcome State Fault Refusal := .next (s.npcStep prog (some 0x13))
def execEmit (prog : Nat) (s : State) : Host.Outcome State Fault Refusal := .next (s.npcStep prog (some 0x14))
def execWaitev (prog : Nat) (s : State) : Host.Outcome State Fault Refusal := .next (s.npcStep prog (some 0x18))
def execSigev (prog : Nat) (s : State) : Host.Outcome State Fault Refusal := .next (s.npcStep prog (some 0x19))

/-- ILLEGAL_INSTRUCTION: the word at the pc is illegal by its opcode or a reserved bit (R383). -/
def execIllegalInstruction (prog : Nat) (s : State) : Host.Outcome State Fault Refusal := .next (s.npcStep prog none)

/-! ### Flags, debug and host access -/

/-- SET_COMPUTE_FLAG: tasks 26 to 33 set a flag; the waiting run that ranks first consumes it (R400). -/
def execSetComputeFlag (flag : Nat) (s : State) : Host.Outcome State Fault Refusal :=
  .next (if flag < 8 then
    s.serve (26 + flag) fun s _ _ =>
      let ws := s.npc.runs.filter fun r => r.phase == .running && r.waits == some flag
      match ws.find? fun r => !(ws.any fun q => q.ahead r) with
      | some r => s.setRun { r with waits := none, released := true }
      | none => s.put NPC_FLAGS_flags (setBits (s.get NPC_FLAGS_flags) flag 1 1)
  else s)

/-- NPC_DBG.resume (R409): a faulting instruction runs again, a trap completes. -/
def State.npcResume (s : State) : State :=
  match s.runIn? (s.get NPC_DBG_prog) .halted with
  | none => s
  | some r =>
    let q := { r with phase := .running, cause := 0, trapped := false, delayed := true }
    if r.trapped then s.advance q none none
    else if q.plan.words ≤ q.pc then s.raiseExc q 0x75 0 false
    else s.setRun q

/-- NPC_DBG.end (R409, R412): the exception's cause and 0x7F are logged. -/
def State.npcEnd (s : State) : State :=
  match s.runIn? (s.get NPC_DBG_prog) .halted with
  | none => s
  | some r =>
    (((s.report r.cause 11 [r.prog, r.frame % 2 ^ 32]).report 0x7F 11 [r.prog, r.frame % 2 ^ 32])).finishRun r r.cause

/-- RESUME. -/
def execResume (s : State) : Host.Outcome State Fault Refusal := .next s.npcResume

/-- NPC_DBG_END. -/
def execNpcDbgEnd (s : State) : Host.Outcome State Fault Refusal := .next s.npcEnd

/-- A write of NPC_DBG; with both bits written, end acts. -/
def State.npcDbgWrite (s : State) (v : Word) : State :=
  let s1 := s.plainWrite aNPC_DBG v
  if bit v.toNat 9 then s1.npcEnd else if bit v.toNat 8 then s1.npcResume else s1

/-- The regions of tensor memory that belong to programs in force (R380). -/
def State.tensorRegions (s : State) : List (Nat × Nat) :=
  s.programs.flatMap fun p =>
    let pl := planOf (s.body 7 p)
    (pl.taps.flatMap fun t => [(t.buf0, t.bytes), (t.buf1, t.bytes)]) ++ [(pl.scratch, pl.scratchLen)]

/-- A host write of a word of tensor memory: the state, and cause 0x7E where it is refused (R380). -/
def State.tensorHostWrite (s : State) (a : Nat) (v : Word) : State × Nat :=
  let inside := s.tensorRegions.any fun g => decide (g.1 < a + 4) && decide (a < g.1 + g.2)
  let idle := !s.lon NPC_CTRL_en && !(s.npc.runs.any Run.holds)
  if inside && !idle then (s, 0x7E) else (s.tensorPut a (leBytes 4 v.toNat), 0)

/-- TENSOR_WRITE: a host write of word `addr` of the tensor memory window. -/
def execTensorWrite (addr : Nat) (value : Word) (s : State) : Host.Outcome State Fault Refusal :=
  .next (if addr < 2 ^ 22 then (s.tensorHostWrite (addr / 4 * 4) value).1 else s)

end Sys2Proof.Machine
end

