-- ==== Sys2Proof/Machine/Shutter.lean ====
section
/-! DEFINITION. The timing generator: run, frames, slots and windows' rows as events (R228 to R243, R251 to R256, R265,
R706), and marks of frames (R416). -/

namespace Sys2Proof.Machine

/-- The shutter part replaced. -/
def State.setSht (s : State) (h : Shutter) : State := s.withSht h

/-- The addresses of the SHT block. -/
def inSht (a : Nat) : Bool := a / 0x10000 == 0x10

/-! ### Slot boundaries -/

/-- What takes effect at a slot boundary: retirements (R293), a snapshot, a seed store's state (R328). -/
def State.slotBoundary (s : State) : State :=
  let s1 := s.retireAll
  (if s1.rdo.snapWaits then s1.takeSnap else s1).storeTake

/-- While no readout runs, it takes effect at once. -/
def State.settleIdle (s : State) : State := if s.slotsRun then s else s.slotBoundary

/-! ### Run -/

/-- SHT_STATUS.mode, .exposures and .streaming follow the structure and the readouts. -/
def State.showSht (s : State) : State :=
  let busy := s.sht.running || s.sht.reading || s.sht.phase != 0
  ((s.put SHT_STATUS_mode s.tmMode).put SHT_STATUS_exposures s.tmExps).put SHT_STATUS_streaming (b2n busy)

/-- RING_n_CLASS.live_en follows the enables in force. -/
def State.showLiveRings (s : State) : State :=
  (List.range 256).foldl
    (fun s n =>
      let v := s.lget (RING_CTRL_en n)
      if s.get (RING_CLASS_live_en n) = v then s else s.put (RING_CLASS_live_en n) v) s

/-- Frame-boundary fields outside the SHT block come into force (R6, R230), with the curves of R348. -/
def State.boundaryOthers (s : State) : State :=
  let en := (List.range 32).map fun k => s.liveReg (aWIN_ENABLE k)
  let s1 := (s.boundary .frame fun a => !inSht a && !(a / 0x100 == aPIPE_CURVE_KNEE 0 0 / 0x100)).curveBoundary
  let s2 := if en = ((List.range 32).map fun k => s1.liveReg (aWIN_ENABLE k)) then s1 else s1.hwSet WIN_IRQ_STAT_applied
  s2.showLiveRings

/-- RUN_TAKE_UP: the first PIX cycle with run in force in STREAM with SYNA locked (R231, R706). -/
def execRunTakeUp (s : State) : Host.Outcome State Fault Refusal :=
  .next (if !s.on SHT_CTRL_run || s.power != 4 || !s.clk.a.locked || s.sht.running || s.pwr.step.isSome then s
  else
    let s1 := ((s.boundary .frame inSht).boundaryOthers).setSht { s.sht with
      running := true, accepted := false, phase := 0, sampled := s.sht.sampled, subNext := [] }
    let s2 := s1.takeSample (s1.sht.frameNo + 1) none
    let s3 := if s2.lon SHT_CTRL_trig_mode ∨ s2.tmMode = 1 then s2
      else s2.setSht { s2.sht with next := s2.sht.next.map fun f =>
        { f with stamp := s2.stampAfter 0, epoch := s2.get TIME_STATUS_epoch, synced := s2.on TIME_STATUS_synced } }
    s3.showSht)

/-- No further readout starts; a global frame already integrating goes on, a rolling one is not read (SHT_CTRL.run). -/
def State.runStop (s : State) : State :=
  let h := s.sht
  let global := h.phase != 0 || (h.accepted && (match h.next with | some f => f.mode == 1 | none => false))
  let s1 := s.setSht { h with
    running := false, next := if global then h.next else none, accepted := h.accepted && global, subNext := [] }
  ((if global then s1 else s1.put SHT_STATUS_integrating 0).showSht).settleIdle

/-- RUN_STOP: SHT_CTRL.run written 0. -/
def execRunStop (s : State) : Host.Outcome State Fault Refusal := .next (s.put SHT_CTRL_run 0).runStop

/-- The exposure `e` in force: that of the last frame sampled, which one beyond its exposures does not have. -/
def State.expInForce (s : State) (e : Nat) : Nat :=
  match s.sht.next.orElse fun _ => s.sht.cur with
  | some f => if e < f.exps then nth f.x e else s.lget (SHT_EXP_exp e)
  | none => s.lget (SHT_EXP_exp e)

/-- A write of SHT_CTRL: run, and a gov_mode that leaves or returns to 0 (R256). -/
def State.shtCtrlWrite (s : State) (v : Word) : State :=
  let was := s.get SHT_CTRL_gov_mode
  let s1 := s.plainWrite aSHT_CTRL v
  let now := s1.get SHT_CTRL_gov_mode
  let s2 :=
    if was = 0 ∧ now ≠ 0 then s1.setSht { s1.sht with written := 0 }
    else if was ≠ 0 ∧ now = 0 then
      (List.range 4).foldl (fun s e => if bit s.sht.written e then s else s.put (SHT_EXP_exp e) (s.expInForce e)) s1
    else s1
  if s.on SHT_CTRL_run && !s2.on SHT_CTRL_run then s2.runStop else s2

/-- A write of SHT_EXPe (R254, R256). -/
def State.expWrite (s : State) (e : Nat) (v : Word) : State :=
  let s1 := s.plainWrite (aSHT_EXP e) v
  s1.setSht { s1.sht with
    hostNew := s1.sht.hostNew || e == 0
    written := if s.get SHT_CTRL_gov_mode = 0 then s1.sht.written else lor s1.sht.written (2 ^ e) }

/-! ### Readout start -/

/-- The window of exposure 0: w_p where it is pulsed (R239). -/
def Frame.window0 (f : Frame) : Nat := if f.pulseExp = 0 ∧ f.mode = 2 then (f.pulses - 1) * f.spacing + f.width else nth f.x 0

/-- Some merged window exists. -/
def State.mergedWindow (s : State) : Bool :=
  s.windows.any fun i => match s.window? i with | some w => w.expSel == 4 | none => false

/-- The registers that report the last frame started (R250, R341, R344). -/
def State.showFrame (s : State) (f : Frame) : State :=
  let pitch := f.exps * f.rowPix
  let s1 := (List.range 4).foldl (fun s e => s.put (SHT_LIVE_EXP_exp e) (nth f.eff e)) s
  let s2 := ((s1.put SHT_LIVE_LAG_lag_1 (min 255 (nth f.lags 1))).put SHT_LIVE_LAG_lag_2 (min 255 (nth f.lags 2))).put
    SHT_LIVE_LAG_lag_3 (min 255 (nth f.lags 3))
  let s3 := s2.put SHT_LIVE_TIMING_row_pix f.rowPix
  let s4 := if f.mode = 1 then s3
    else s3.put SHT_LIVE_TIMING_blank_pitch (min 65535 ((f.period - f.slots * f.rowPix) / pitch))
  let s5 := (List.range 3).foldl (fun s e => s.put (PIPE_LIVE_RATIO_ratio e) (nth f.ratios (e + 1))) s4
  let out := !f.excluded.isEmpty
  let s6 := s5.put PIPE_STATUS_merge_excluded (b2n out)
  let s7 := if out then s6.hwSet PIPE_IRQ_STAT_merge_excluded else s6
  if f.clamped || (out && s.mergedWindow) then (s7.hwSet SHT_IRQ_STAT_ae_clamped).countN 119 1 else s7

/-- The frame whose readout starts now: its number, marks, checker flag, and the stamp of a free-running rolling frame
(R16, R235, R444, R648). -/
def State.starting (s : State) (f : Frame) : Frame :=
  let rolling := f.mode != 1 && !f.triggered && !f.first
  let g := if rolling then
      let b := s.stampBack f.window0
      { f with stamp := b.1, epoch := b.2.1, synced := b.2.2 }
    else f
  { g with number := s.sht.frameNo + 1, marks := s.sht.nextMarks, checkerLost := s.on SAFE_BADGER_lost }

/-- A readout starts (R230, R231). -/
def State.readoutStart (s : State) (f0 : Frame) : State :=
  let f := s.starting f0
  let s1 := s.setSht { s.sht with
    frameNo := f.number, cur := some f, next := none, reading := true, slot := 0, phase := 0, accepted := false
    nextMarks := 0, meterSum := 0, meterCount := 0, subPulses := s.sht.subNext, subNext := []
    slotMarked := s.analogActive }
  let s2 := ((s1.put SHT_FRAME_NUM_frame f.number).put SHT_STATUS_integrating 0).hwSet SHT_IRQ_STAT_readout_start
  let s3 := ((s2.withTime { s2.time with lines := recentLines s2.cycle s2.timeLines }).withRdo { s2.rdo with means := [] }).withPipe { s2.pipe with sums := [], s1 := [], rows := [], subst := [], defects := 0 }
  let s4 := ((s3.pulse 46).showFrame f).makeRuns f
  let s5 := (s4.withSafe { s4.safe with badgerOff := false }).boundary .frame inSht
  (if s5.sht.running then s5.takeSample (f.number + 1) (some f) else s5).showSht

/-- READOUT_START: a free-running rolling frame, a triggered one, or a global frame whose last transfer has ended. -/
def execReadoutStart (s : State) : Host.Outcome State Fault Refusal :=
  .next (match s.sht.next with
  | none => s
  | some f =>
    let due := if f.mode = 1 then s.sht.phase == 3 else s.sht.running && (!f.trigMode || s.sht.accepted)
    if due && !s.sht.reading && s.power == 4 then s.readoutStart f else s)

/-! ### Global exposures -/

/-- GLOBAL_INTEGRATION_START: every drain gate closes (R240, R243, R444). -/
def execGlobalIntegrationStart (s : State) : Host.Outcome State Fault Refusal :=
  .next (match s.sht.next with
  | none => s
  | some f =>
    if f.mode = 1 ∧ s.sht.phase = 0 ∧ (s.sht.accepted ∨ (s.sht.running ∧ !f.trigMode)) then
      let g := { f with stamp := s.stampAfter 0, epoch := s.get TIME_STATUS_epoch, synced := s.on TIME_STATUS_synced }
      (s.setSht { s.sht with next := some g, phase := 1 }).pulse 49
    else s)

/-- The slots of a global frame from its readout end to the end of the guard (R242). -/
def guardSlots : Nat := 524 + 160

/-- The storage nodes are free for a transfer: no readout runs, and the guard after a global one has ended (R242). -/
def State.nodesFree (s : State) : Bool :=
  !s.sht.reading && (match s.sht.cur with | some g => g.mode != 1 || decide (guardSlots ≤ s.sht.after) | none => true)

/-- TRANSFER_T1: S1 holds the first exposure; with one exposure the frame is ready to be read (R240). It never starts
before the end of the guard (R242). -/
def execTransferT1 (s : State) : Host.Outcome State Fault Refusal :=
  .next (match s.sht.next with
  | none => s
  | some f =>
    if s.sht.phase = 1 ∧ s.nodesFree then s.setSht { s.sht with phase := if f.exps = 2 then 2 else 3 } else s)

/-- TRANSFER_T2: S2 holds the second exposure (R240). -/
def execTransferT2 (s : State) : Host.Outcome State Fault Refusal :=
  .next (if s.sht.phase = 2 then s.setSht { s.sht with phase := 3 } else s)

/-- The read slot of physical row `p` for exposure `e` is still to come in the readout that runs (R232). -/
def State.readAhead (s : State) (f : Frame) (p e : Nat) : Bool :=
  s.sht.reading && decide (s.sht.slot < f.exps * (p + f.lag e) + e)

/-- The sub-pulses of row `p` counted in `l`, one more where the frame takes one: at most N' of them (R239, R705). -/
def Frame.subPulse (f : Frame) (l : List (Nat × Nat)) (p : Nat) : List (Nat × Nat) :=
  let n := Sparse.get 0 l p
  if f.mode = 2 ∧ p < physRows ∧ n < f.pulses then Sparse.insert l p (n + 1) else l

/-- SUB_PULSE: a sub-pulse of physical row `row` is added into S1. It belongs to the frame that is read while the row's read
slot for e_p is still to come there, else to the next frame (R239), if that one starts without a trigger or has had it. -/
def execSubPulse (row : Nat) (s : State) : Host.Outcome State Fault Refusal :=
  .next (let h := s.sht
  let now := match h.cur with | some f => f.mode == 2 && s.readAhead f row f.pulseExp | none => false
  match now, h.cur, h.next with
  | true, some f, _ => s.setSht { h with subPulses := f.subPulse h.subPulses row }
  | _, _, some f => if f.trigMode && !h.accepted then s else s.setSht { h with subNext := f.subPulse h.subNext row }
  | _, _, none => s)

/-- MARK_METADATA: tasks 6 to 9 set a mark of the frame in readout, or of the next one (R416). -/
def execMarkMetadata (mark : Nat) (s : State) : Host.Outcome State Fault Refusal :=
  .next (if mark < 4 then
    s.serve (6 + mark) fun s _ _ =>
      let h := s.sht
      match h.reading, h.cur with
      | true, some f => s.setSht { h with cur := some { f with marks := setBits f.marks mark 1 1 } }
      | _, _ => s.setSht { h with nextMarks := setBits h.nextMarks mark 1 1 }
  else s)

/-! ### Slots -/

/-- The codes that enter black level: S1 less S2 in global mode with one exposure (R330). -/
def cds (one two : List (Option Int)) : List (Option Int) :=
  (one.zip two).map fun x => match x.1, x.2 with | some a, some b => some (a - b) | _, _ => none

/-- The pixels of a converting slot of physical row `p`, exposure `e` (R330 to R339). -/
def State.slotPixels (s : State) (f : Frame) (codes : List (Option Int)) (p e : Nat) (binned marked : Bool) : State :=
  let single := f.mode == 1 && f.exps == 1
  if single && e == 0 then s.withPipe { s.pipe with s1 := codes, s1Marked := marked }
  else
    let marked := marked || (single && s.pipe.s1Marked)
    let cs := if single then cds s.pipe.s1 codes else codes
    let x := if single then 0 else e
    let s1 := if 8 ≤ p ∧ p < 40 ∧ !marked then s.blackSum cs p x else s
    let s2 := if p = 39 then s1.blackFinish x f.first else s1
    let s3 := if p = 39 ∧ single then
        (List.range 24).foldl (fun s b => (List.range 4).foldl (fun s q => s.put (PIPE_BL_bl b 1 q) 0) s) s2
      else s2
    if 40 ≤ p ∧ p < 2088 then s3.pixelRow cs (p - 40) x binned else s3

/-- A converting slot of physical row `p`, exposure `e` ends (R280 to R287, R293, R310 to R314, R654). -/
def State.convertSlot (s : State) (f : Frame) (d : SlotData) (p e : Nat) : State :=
  let active := decide (40 ≤ p) && decide (p < 2088)
  let a := p - 40
  let binned := active && s.inBand a
  let marked := s.sht.slotMarked || s.analogActive
  let test := active && s.testRow a
  let codes := s.rowCodes d binned test
  let s1 := s.countN 123 1
  let s3 := if active && e == s.meanExp f then s1.rowMeans codes a else s1
  let s4 := s3.slotPixels f codes p e binned marked
  let s5 := if marked && active then
      s4.setSht { s4.sht with cur := s4.sht.cur.map fun g => { g with marked := g.marked ++ [(a, e)] } }
    else s4
  ((s5.calibrate d test marked).slotBoundary).advanceRest

/-- The slot of exposure 0 that reads active row EVF_ROW_MARK.row fires source 48, whether or not a slice converts it
(R413). -/
def State.rowMark (s : State) (p e : Nat) : State :=
  if e = 0 ∧ 40 ≤ p ∧ p < 2088 ∧ p - 40 = s.lget EVF_ROW_MARK_row then s.pulse 48 else s

/-- A slot outside a readout: a self-test slot, or idle (R242, R289). -/
def State.idleSlot (s : State) (f : Frame) (d : SlotData) : State :=
  let n := s.sht.after
  let s1 := s.setSht { s.sht with after := n + 1 }
  let s2 := if s.sht.running && decide (f.flush ≤ n) && decide (n < f.flush + 16) then s1.testSlot d else s1
  let s3 := s2.slotBoundary
  s3.setSht { s3.sht with slotMarked := s3.analogActive }

/-- ROW_SLOT: one row slot elapses (R228, R232, R241, R266). -/
def execRowSlot (data : SlotData) (s : State) : Host.Outcome State Fault Refusal :=
  .next (match s.sht.cur with
  | none => s.slotBoundary
  | some f =>
    if !s.sht.reading then s.idleSlot f data
    else if f.slots ≤ s.sht.slot then s
    else
      let j := s.sht.slot
      let s1 := s.setSht { s.sht with slot := j + 1 }
      let s2 := match f.serves j with
        | none => s1.slotBoundary
        | some (p, e) =>
          let s1 := s1.rowMark p e
          if 40 ≤ p ∧ p < 2088 ∧ s.inBand (p - 40) ∧ 2 ≤ (p - 40) % 4 then s1.slotBoundary
          else s1.convertSlot f data p e
      s2.setSht { s2.sht with slotMarked := s2.analogActive })

/-! ### Windows' rows -/

/-- The held row of active row `a` and exposure `e` as an uncorrectable error leaves it: which bits have changed is not
stated, so its values are free (DESIGN CHOICE, notes/assumptions/86.md). -/
def State.garbleRow (s : State) (a e : Nat) : State :=
  match Sparse.find s.pipe.rows (4 * a + e) with
  | none => s
  | some r =>
    let r' : List Int := (List.range r.length).map fun i => toSigned 32 (Config.freeValue (s.fresh + i) % 2 ^ 32)
    (s.withFresh (s.fresh + r.length)).withPipe { s.pipe with rows := Sparse.insert s.pipe.rows (4 * a + e) r' }

/-- Output row `k` of a merged window is read from the merge buffer, which holds the exposures before the last (11, Merge buffer);
the words of `errors` are in error there (R650, R652). -/
def State.mergeRead (s : State) (f : Frame) (w : Win) (k : Nat) (errors : List (Nat × Nat)) : State :=
  if w.expSel ≠ 4 ∨ f.mode = 1 ∨ f.exps < 2 then s
  else
    let t := s.sramErrors 8 errors
    if errors.all fun (e : Nat × Nat) => decide (e.2 < 2) then t
    else (w.inRows k).foldl (fun s a => (List.range (f.exps - 1)).foldl (fun s e => s.garbleRow a e) s) t

/-- WINDOW_ROW_AVAILABLE: output row `row` of a window goes to its ring, its tap and its writer (R265, R268 to R272);
rows of a frame come in order. -/
def execWindowRowAvailable (window row : Nat) (errors : List (Nat × Nat)) (s : State) : Host.Outcome State Fault Refusal :=
  .next (match s.window? window, s.sht.cur with
  | some w, some f =>
    let next := match s.winFrame? window with | some x => if x.number = f.number then x.next else 0 | none => 0
    if !s.sht.reading || !s.samples window w f.number || row != next || decide (w.outH ≤ row) then s
    else
      match s.outRow f w row with
      | none => s
      | some _ =>
        let t := s.mergeRead f w row errors
        let payload := packBits w.bpp ((t.outRow f w row).getD [])
        ((t.ringRow window w row f payload).tapRows window w row f).writerRow w row f payload
  | _, _ => s)

/-! ### Readout end -/

/-- The governor's result from the frame that ends (R251 to R254). -/
def State.govern (s : State) (f : Frame) : State :=
  let h := s.sht
  if h.meterCount = 0 ∨ s.get SHT_GOV_METER_last < s.get SHT_GOV_METER_first ∨ f.number < h.govFrom then s
  else
    let m := h.meterSum / h.meterCount
    let t := s.get SHT_GOV_CFG_target
    let x0 := nth f.x 0
    let xt := if 4032 ≤ m then x0 / 4 else if m = 0 then x0 * 4 else x0 * t / m
    let near := decide (m ≤ t + s.get SHT_GOV_CFG_deadband) && decide (t ≤ m + s.get SHT_GOV_CFG_deadband)
    let d : Int := ((xt : Int) - x0) * (s.get SHT_GOV_CFG_gain + 1) / 16
    let r := if near then x0 else ((x0 : Int) + d).toNat
    s.setSht { h with results := Sparse.insert h.results (f.number + 2) r }

/-- What ends with a readout, before any change of structure or of frame-boundary fields: flags, governor, runs,
metadata, the frames that writers store (R16, R230, R489, R502). -/
def State.closeReadout (s : State) (f0 : Frame) : State :=
  let f := s.gather f0
  let s1 := (s.setSht { s.sht with cur := some f, reading := false, after := 0 }).govern f
  let s2 := ((s1.hwSet SHT_IRQ_STAT_readout_end).pulse 47).endRuns f
  let s3 := s2.windows.foldl (fun s i => match s.window? i with | some w => s.sendMetadata i w f | none => s) s2
  let s4 := (s3.keepStoreFlags f).put PIPE_DEFECT_COUNT_count (min (s3.pipe.defects) (2 ^ 24 - 1))
  let s5 := (s4.withRdo { s4.rdo with recent := [] }).withSafe { s4.safe with badgerPending := true }
  s5.showSht.settleIdle

end Sys2Proof.Machine
end

