-- ==== Sys2Proof/Machine/Supplies.lean ====
section
/-! DEFINITION. Supplies, RESETB, TESTEN and the test access port (02_package_and_supplies.md; R143, R653 to R656). -/

namespace Sys2Proof

/-! ### The levels of the rails -/

/-- The voltage class of a bank as latched: true is the 3.3 V class, above 2.40 V (R50). -/
def Straps.high (x : Straps) (rail : Rail) : Bool :=
  match rail with
  | .vddio0 => decide (2400 < x.vddio0)
  | .vddio1 => decide (2400 < x.vddio1)
  | _ => false

/-- Nominal voltage, warning level and reset level of a rail in mV, the banks by their class (R50, R57). The monitors switch
at the nominal levels (R670 gives their tolerance; DESIGN CHOICE, notes/assumptions/75.md). -/
def Straps.levels (x : Straps) (rail : Rail) : Nat × Nat × Nat :=
  match rail with
  | .vaa => (2800, 2600, 2450)
  | .vad => (1800, 1670, 1580)
  | .vdd => (800, 745, 700)
  | .vddm => (1100, 1020, 960)
  | .vddl => (900, 835, 790)
  | .vddao => (800, 745, 700)
  | r => if x.high r then (3300, 2900, 2700) else (1800, 1580, 1480)

/-- A rail stands below its warning level, or below its reset level. -/
def Straps.belowWarning (x : Straps) (rail : Rail) (mv : Nat) : Bool := decide (mv < (x.levels rail).2.1)
def Straps.belowReset (x : Straps) (rail : Rail) (mv : Nat) : Bool := decide (mv < (x.levels rail).2.2)

/-- A rail has risen above its warning level by 2 % of its nominal voltage (R59). -/
def Straps.recovered (x : Straps) (rail : Rail) (mv : Nat) : Bool :=
  decide (100 * (x.levels rail).2.1 + 2 * (x.levels rail).1 ≤ 100 * mv)

end Sys2Proof

namespace Sys2Proof.Machine

/-! ### Resets -/

/-- A number per rail: that of SYS_BOOT_REPORT.rail, with 7 for VDDIO1 and 0 for VDDAO (R653). -/
def railNum : Rail → Nat
  | .vddao => 0 | .vaa => 1 | .vad => 2 | .vdd => 3 | .vddm => 4 | .vddl => 5 | .vddio0 => 6 | .vddio1 => 7

/-- The test access port after its reset: BYPASS is selected. -/
def Supply.tapReset (p : Supply) : Supply := { p with tapIr := 0x3F, extest := false, bypass := false }

/-- The test access port after a loss of its supply: reset, with its registers cleared (R60). What the board drives, the
levels of RESETB and TESTEN, and the latches of R48 stay. -/
def Supply.lost (p : Supply) : Supply :=
  { p.tapReset with boundary := List.replicate 47 false, captured := List.replicate 47 false, tdo := [] }

/-- COLD_RESET: VDDAO stands at `mv`, below its reset level or absent, and the whole device is reset, the always-on island and
the test access port with it (R60, R143). The latched straps stay in force until the next rising edge of RESETB (R48). -/
def execColdReset (mv : Nat) (s : State) : Host.Outcome State Fault Refusal :=
  .next (if s.supply.straps.belowReset .vddao mv then (s.withSupply s.supply.lost).coldReset else s)

/-- SUPPLY_FAILURE_RESET: the outcome of a reset-level crossing (R60), of everything but the always-on island, the test
access port included. The monitors rest in OFF (R70); VDDIO1 resets nothing, which VDDIO1_RESET_LEVEL describes. -/
def execSupplyFailureReset (rail : Rail) (s : State) (mv : Nat := 0) : Host.Outcome State Fault Refusal :=
  .next (if !s.supply.straps.belowReset rail mv then s
  else match rail with
    | .vddao => (s.withSupply s.supply.lost).coldReset
    | .vddio1 => s
    | r => if s.boot.phase = .off then s else (s.withSupply s.supply.lost).resetTo 1 (railNum r))

/-- RESETB_RESET: a rising edge of RESETB latches the straps (R48, R143, R145). -/
def execResetbReset (straps : Straps) (s : State) : Host.Outcome State Fault Refusal :=
  .next ((s.withSupply { s.supply with straps := straps, resetbLow := false }).resetTo 2 0)

/-- RESETB_LOW: RESETB low for 1.0 us puts the device into reset and holds it there (R677). -/
def execResetbLow (s : State) : Host.Outcome State Fault Refusal :=
  .next ((s.withSupply { s.supply with resetbLow := true }).resetTo 2 0)

/-- TESTEN_HIGH: while TESTEN is high the device holds itself in reset, and FAULTB stays low (R53); when it falls the device
starts, with the straps it has latched and the source of RESETB (DEDUCED, notes/assumptions/75.md). -/
def execTestenHigh (s : State) (high : Bool := true) : Host.Outcome State Fault Refusal :=
  .next (if high || s.supply.testen then (s.withSupply { s.supply with testen := high }).resetTo 2 0 else s)

/-- SOFTWARE_RESET: the key resets the device, every other value is ignored (05, SYS_RESET). -/
def execSoftwareReset (key : Word) (s : State) : Host.Outcome State Fault Refusal :=
  .next (if key = 0xA5C3#32 ∧ s.portsDead = false then s.resetTo 3 0 else s)

/-! ### Test access port -/

/-- The 47 signal balls that the boundary register covers (R55). -/
def boundaryCells (l : List Bool) : List Bool := (List.range 47).map fun i => l.getD i false

/-- Leaving EXTEST starts the device as a rising edge of RESETB does, with source 5 (R56, R143). -/
def State.leaveExtest (s : State) (straps : Straps) : State :=
  if s.supply.extest then
    (s.withSupply { s.supply with extest := false, straps := straps }).resetTo 5 0
  else s

/-- EXTEST: the boundary register drives the pins, and the device is held in reset (R54, R56). -/
def execExtest (s : State) : Host.Outcome State Fault Refusal :=
  .next ((s.withSupply { s.supply with tapIr := 0, extest := true }).resetTo 5 0)

/-- SAMPLE/PRELOAD: captures the pins, which leave through TDO while the boundary register is loaded (R54, R55). -/
def execSamplePreload (pins preload : List Bool) (straps : Straps) (s : State) : Host.Outcome State Fault Refusal :=
  .next (
    let t := s.leaveExtest straps
    (t.withSupply { t.supply with
      tapIr := 1, captured := boundaryCells pins, boundary := boundaryCells preload, tdo := boundaryCells pins }))

/-- The bypass register shifts `tdi`: it captures 0, and each bit leaves one shift after it came (R54; IEEE 1149.1). -/
def Supply.shiftBypass (p : Supply) (tdi : List Bool) : Supply :=
  { p with bypass := tdi.getLastD false, tdo := (false :: tdi).take tdi.length }

/-- BYPASS and every opcode that is not decoded select the bypass register, which shifts `tdi`. A private opcode does so
while TESTEN is low; what it does while TESTEN is high, the spec leaves outside its description (R54; 02, TESTEN is
high). -/
def execBypass (opcode : Nat) (straps : Straps) (s : State) (tdi : List Bool := []) : Host.Outcome State Fault Refusal :=
  if opcode < 2 then .next s
  else if s.supply.testen && opcode / 16 == 2 then .refused (.privateInstruction opcode)
  else
    let t := s.leaveExtest straps
    .next (t.withSupply ({ t.supply with tapIr := opcode % 64 }.shiftBypass tdi))

/-- TEST_ACCESS_PORT_RESET: BYPASS is selected; out of EXTEST, the device starts (R56, R143). -/
def execTestAccessPortReset (straps : Straps) (s : State) : Host.Outcome State Fault Refusal :=
  .next (
    let t := s.leaveExtest straps
    (t.withSupply t.supply.tapReset))

/-! ### Brownout episodes -/

/-- SUPPLY_GLITCH: a dip shorter than the filter counts in sources 96 to 103 (R58, R662). -/
def execSupplyGlitch (rail : Rail) (s : State) : Host.Outcome State Fault Refusal :=
  .next (if s.portsDead then s else s.count (96 + (railNum rail + 7) % 8))

/-- One microsecond in time base format. -/
def usUnit : Nat := 1000 * 65536

/-- Whole microseconds from stamp `a` to now. -/
def State.usSince (s : State) (a : Nat) : Nat := (s.now + 2 ^ 64 - a % 2 ^ 64) % 2 ^ 64 / usUnit

/-- An episode has lasted its limit (R656). -/
def State.episodeLong (s : State) (rail : Nat) : State :=
  let es := s.supply.episodes.map fun e => if e.rail = rail then { e with limitDone := true } else e
  ((s.withSupply { s.supply with episodes := es }).report 0x82 19 [rail]).setFault 1

/-- BROWNOUT_EPISODE_START: the rail stands at `mv`, below its warning level, for 1.0 us (R58); at most one episode per rail; its stamp is the detection minus 1.0 us, and a limit of 0 is
reached at once (R653, R656). -/
def execBrownoutEpisodeStart (rail : Rail) (s : State) (mv : Nat := 0) : Host.Outcome State Fault Refusal :=
  .next (
    let r := railNum rail
    if s.portsDead || !s.supply.straps.belowWarning rail mv || s.supply.episodes.any (fun e => e.rail == r) then s
    else
      let st := (s.now + 2 ^ 64 - usUnit) % 2 ^ 64
      let e : Episode := { rail := r, stamp := st, limitDone := false }
      let s1 := (s.withSupply { s.supply with episodes := s.supply.episodes ++ [e] }).log
        { cause := 0x80, kind := 0, block := 19, args := [r], stamp := st }
      let s2 := (s1.bumpWrap SAFE_EPISODES_count).put SAFE_EPISODES_last_rail r
      let s3 := (s2.put SAFE_SUPPLY_warning (lor (s2.get SAFE_SUPPLY_warning) (2 ^ r))).hwSet SAFE_IRQ_STAT_episode
      let s4 := s3.setSht { s3.sht with slotMarked := s3.sht.slotMarked || s3.analogActive }
      let s5 := (if r = 0 ∨ r = 2 ∨ r = 3 then s4.storeWarned else s4).arrive 95 true
      if s5.get SAFE_BROWNOUT_LIMIT_us = 0 then s5.episodeLong r else s5)

/-- BROWNOUT_EPISODE_END: the rail has recovered to `mv`, and its episode ends with its duration from its stamp (R59,
R653). -/
def execBrownoutEpisodeEnd (rail : Rail) (s : State) (mv : Nat := 3300) : Host.Outcome State Fault Refusal :=
  .next (
    let r := railNum rail
    match s.supply.episodes.find? (fun e => e.rail == r) with
    | none => s
    | some e =>
      if !s.supply.straps.recovered rail mv then s
      else
      let d := s.usSince e.stamp
      let es := s.supply.episodes.filter fun e => e.rail != r
      let framed := decide (1 ≤ r) && decide (r ≤ 5)
      let s1 : State := ((s.withSupply { s.supply with episodes := es }).withSafe (if framed then { s.safe with railEnd := s.now, railSeen := true } else s.safe)).withHk (if r = 2 then { s.hk with vadLast := some ((e.stamp + usUnit) % 2 ^ 64, s.now) } else s.hk)
      let s2 := (s1.report 0x81 19 [r, d]).put SAFE_EPISODE_LAST_us (min d (2 ^ 32 - 1))
      let s3 := s2.put SAFE_SUPPLY_warning (andNot (s2.get SAFE_SUPPLY_warning) (2 ^ r))
      if es.isEmpty then s3.arrive 95 false else s3)

/-- BROWNOUT_LIMIT_EXPIRY: the episode has lasted SAFE_BROWNOUT_LIMIT from its stamp (R656). -/
def execBrownoutLimitExpiry (rail : Rail) (s : State) : Host.Outcome State Fault Refusal :=
  .next (
    let r := railNum rail
    if s.supply.episodes.any (fun e => e.rail == r && !e.limitDone) then s.episodeLong r else s)

end Sys2Proof.Machine
end

