-- ==== Sys2Proof/Machine/Health.lean ====
section
/-! DEFINITION. Badger, scrubbing, temperature, the age of the event log, FAULTB's wave and test, and the rows of the
event counters (22_faults_safety_health.md). -/

namespace Sys2Proof.Machine

/-! ### Badger -/

/-- BADGER_SELF_TEST: one test after each readout end, on bit b = frame mod 96; without the expected report the checker
is lost until the next reset (R647, R648). -/
def execBadgerSelfTest (reported : Bool) (s : State) : Host.Outcome State Fault Refusal :=
  .next (if s.safe.badgerPending then
    let f := match s.sht.cur with | some f => f.number | none => s.sht.frameNo
    let b := f % 96
    let s1 := (s.withSafe { s.safe with badgerPending := false }).put SAFE_BADGER_last_bit b
    if reported || s1.on SAFE_BADGER_lost then s1
    else ((s1.put SAFE_BADGER_lost 1).report 0x91 19 [b, f % 2 ^ 32]).setFault (2 ^ 16)
  else s)

/-- BADGER_MISMATCH: the copies differ first in bit `bit` in a PIX cycle outside an injection; a lost checker reports
nothing, nor one that waits for copy B to be loaded at the next readout start (R646, R648). PIX runs in READY and STREAM (R626). -/
def execBadgerMismatch (bit : Nat) (s : State) : Host.Outcome State Fault Refusal :=
  .next (if s.on SAFE_BADGER_lost || s.safe.badgerOff || decide (s.power < 3) || decide (96 ≤ bit) then s
  else ((((s.withSafe { s.safe with badgerOff := true }).bump SAFE_BADGER_mismatches).count 121).report 0x90 19 [bit, s.frameLow]).setFault (2 ^ 4))

/-! ### ECC of the on-chip memories -/

/-- A packet leaves with its payload as read (R652). -/
def Packet.readAs (p : Packet) (data : List Byte) : Packet :=
  if data.length = p.payload.length then { p with payload := data } else p

/-- What an uncorrectable error found by the scrubber at byte address `a` leads to, by memory (R652). -/
def State.scrubBad (s : State) (f : Scrub) (a : Nat) : State :=
  if f.memory ≤ 3 then ((s.eccBad f.memory a 1).eccLog 0x84 f.memory a).markBad f.memory a
  else if f.memory = 4 then
    let r := s.ring f.ring
    let t := s.setRing f.ring { r with
      spool := r.spool.map fun p => if p.seq = f.seq % 65536 then p.readAs f.data else p }
    (t.eccBad 4 a 1).eccLog 0x85 4 a [f.ring, f.seq]
  else if f.memory = 5 then
    let held := s.link.held.map fun h => if h.2.ring = f.ring ∧ h.2.seq = f.seq % 65536 then (h.1, h.2.readAs f.data) else h
    let t : State := s.withLink { s.link with held := held }
    (t.eccBad 5 a 1).eccLog 0x86 5 a [f.ring, f.seq]
  else if f.memory = 6 then
    ((s.withSafe { s.safe with supervisorDead := true }).eccBad 6 a 2).report 0x88 19
  else (s.eccBad f.memory a 1).eccLog 0x87 f.memory a

/-- The scrubber of an on-chip memory takes a slot: in word `f.word` of its next line it finds `f.errorBits` bits in error
(R650 to R652). -/
def State.scrubFound (s : State) (f : Scrub) : State :=
  if s.portsDead || f.memory = 0 || decide (10 < f.memory) then s
  else
    let k := s.sweep f.memory
    let s1 := s.withSafe { s.safe with sweeps := Sparse.put {} s.safe.sweeps f.memory (k.took (sramSize f.memory) f.errorBits) }
    if f.errorBits = 0 then s1
    else if f.errorBits = 1 then (s1.bump SAFE_ECC_corrected).count 104
    else s1.scrubBad f (k.next + 8 * (f.word % 8))

/-- SRAM_SCRUB: one line, while the memory's port is idle (R651). -/
def execSramScrub (found : Scrub) (s : State) : Host.Outcome State Fault Refusal := .next (s.scrubFound found)

/-! ### Temperature -/

/-- Whether a thermal condition holds after the hottest code `h` (R657): it starts at the level and ends below
level - 32. -/
def thermalHolds (was : Bool) (h level : Nat) : Bool := decide (level ≤ h) || (was && decide (level ≤ h + 32))

/-- One condition follows the hottest code; its onset is logged with the channel (R657). -/
def State.thermalFollow (s : State) (cond level : Fld) (cause : Nat) : State :=
  let was := s.on cond
  let is := thermalHolds was (s.get SAFE_THERMAL_STAT_hottest) (s.get level)
  let s1 := s.put cond (b2n is)
  if is && !was then (s1.report cause 19 [8 + s.get SAFE_THERMAL_STAT_channel]).refault else s1

/-- The latest codes of the temperature channels are looked at again (R657). -/
def State.thermalLook (s : State) (codes : List (Nat × Nat)) : State :=
  match codes with
  | [] => s
  | c :: cs =>
    let top := cs.foldl (fun a x => if a.2 < x.2 then x else a) c
    let held := s.thermalActive
    let s1 := (s.put SAFE_THERMAL_STAT_hottest top.2).put SAFE_THERMAL_STAT_channel (top.1 - 8)
    let s2 := s1.thermalFollow SAFE_THERMAL_STAT_warn SAFE_THERMAL_warn 0x8C
    let s3 := s2.thermalFollow SAFE_THERMAL_STAT_crit SAFE_THERMAL_crit 0x8D
    if held && !s3.thermalActive then
      s3.withSafe { s3.safe with thermalEnd := s3.now, thermalSeen := true }
    else s3

/-- THERMAL_STALE: no temperature channel converted for 100 ms in READY or STREAM (R658). -/
def execThermalStale (s : State) : Host.Outcome State Fault Refusal :=
  .next (if decide (s.power < 3) || s.on SAFE_THERMAL_STAT_stale then s
  else ((s.put SAFE_THERMAL_STAT_stale 1).report 0x8E 19).refault)

/-! ### Event log and FAULTB -/

/-- EVENT_LOG_AGE: the oldest entry has been held for its age; the packet waits while ring 1 cannot send (R660). -/
def execEventLogAge (s : State) : Host.Outcome State Fault Refusal :=
  .next (if s.safe.log.isEmpty then s else (s.withSafe { s.safe with logAged := true }).logFlush)

/-- FAULTB_HALF_PERIOD: at level 1 the wave turns (R645). -/
def execFaultbHalfPeriod (s : State) : Host.Outcome State Fault Refusal :=
  .next (if s.get SAFE_FAULTB_level = 1 then s.withSafe { s.safe with waveLow := !s.safe.waveLow } else s)

/-- SAFE_FAULTB.test takes a value; setting it forces level 2 and logs 0x94 (R644, R665). -/
def State.faultTest (s : State) (on : Bool) : State :=
  let was := s.on SAFE_FAULTB_test
  let s1 := s.put SAFE_FAULTB_test (b2n on)
  if on && !was then (s1.report 0x94 19).refault else s1.refault

/-- FAULTB_TEST. -/
def execFaultbTest (on : Bool) (s : State) : Host.Outcome State Fault Refusal :=
  .next (if s.portsDead then s else s.faultTest on)

/-! ### Event counters -/

/-- Each counter whose bit is 1 takes the count of this cycle's event; a snapshot of this cycle still takes the value
before (R663, R664). -/
def State.clearCounters (s : State) (mask : Nat) : State :=
  (setBitsOf 32 mask).foldl
    (fun s k =>
      let old := match Sparse.find s.cnt.cleared k with | some v => v | none => s.counter k
      let s1 : State := s.withCnt { s.cnt with cleared := Sparse.insert s.cnt.cleared k old }
      s1.setCounter k (b2n (s.cnt.counted.contains k))) s

/-- CNT_CLEAR. -/
def execCntClear (mask : Word) (s : State) : Host.Outcome State Fault Refusal := .next (s.clearCounters mask.toNat)

/-- A read of CNT_LIVEk_LO through a port captures the upper half for that port (22, CNT_LIVE). -/
def State.captureCounter (s : State) (p : Port) (k : Nat) : State :=
  s.withCnt { s.cnt with captured := Sparse.put 0 s.cnt.captured (32 * p.num + k) (s.counter k / 2 ^ 32) }

/-- COUNTER_LIVE_CAPTURE. -/
def execCounterLiveCapture (port : Port) (counter : Nat) (s : State) : Host.Outcome State Fault Refusal :=
  .next (if counter < 32 then s.captureCounter port counter else s)

end Sys2Proof.Machine
end

