-- ==== Sys2Proof/Machine/Hka.lean ====
section
/-! DEFINITION. The housekeeping converter: requests, conversions, windows, the result buffer and self-calibration
(19_housekeeping_converter.md). -/

namespace Sys2Proof.Machine

/-! ### Cores and their clock -/

/-- HKCLK reaches the cores (R626, R642). -/
def State.hkRuns (s : State) : Bool :=
  s.synaOut 6 && decide (2 ≤ s.power) && (decide (s.power < 3) || s.on PWR_BLOCK_EN_hk)

/-- Core `c`. -/
def State.hkCore (s : State) (c : Nat) : HkCore := if c = 0 then s.hk.a else s.hk.b

/-- The housekeeping state replaced. -/
def State.setHk (s : State) (h : Hk) : State := s.withHk h

/-- HKA_STATUS follows the cores. -/
def State.showHk (s : State) : State :=
  let a := s.hk.a
  let b := s.hk.b
  ((s.put HKA_STATUS_busy (b2n a.conv.isSome + 2 * b2n b.conv.isSome)).put HKA_STATUS_awake (b2n a.awake + 2 * b2n b.awake)).put
    HKA_STATUS_pending (b2n a.pending + 2 * b2n b.pending)

/-- Core `c` replaced. -/
def State.setHkCore (s : State) (c : Nat) (k : HkCore) : State :=
  (s.setHk (if c = 0 then { s.hk with a := k } else { s.hk with b := k })).showHk

/-- The core whose registers and requests govern core `c`: HKA0 for the interleaved pair (R577). -/
def State.hkLead (s : State) (c : Nat) : Nat := if s.hk.inter then 0 else c

/-- The mode in force for core `c`. -/
def State.hkMode (s : State) (c : Nat) : Nat := s.get (HKA_CORE_CFG_mode (s.hkLead c))

/-- The stamp of the sample instant of a result combined now, 28 HK cycles earlier, on the time base as it ran then (R568). -/
def State.sampleStamp (s : State) : Nat := ((s.baseBack 28 6).1 % 2 ^ 72).toNat / 2 ^ 8

/-- The last housekeeping cause. -/
def State.hkCause (s : State) (c : Nat) : State := s.put HKA_STATUS_cause c

/-- HKCLK has stopped: conversions are abandoned, and modes 2 and 3 end (19, HKCLK is stopped; DEDUCED,
notes/assumptions/29.md). -/
def State.hkCheck (s : State) : State :=
  if s.hkRuns then s
  else
    let halt (k : HkCore) : HkCore :=
      { k with conv := none, want := k.want && !k.running, running := false, forced := none }
    (s.setHk { s.hk with a := halt s.hk.a, b := halt s.hk.b }).showHk

/-! ### Requests -/

/-- The core that takes the next conversion of core `c`'s registers. -/
def State.hkTurn (s : State) (c : Nat) : Nat := if s.hk.inter then s.hk.turn else c

/-- A start request for core `c` (R572 to R574, R577); a refused register request leaves its cause (R591). -/
def State.hkRequest (s : State) (c : Nat) (byReg : Bool) : State :=
  let l := s.hkLead c
  let k := s.hkCore l
  let m := s.hkMode c
  if m = 0 ∨ s.on HKA_CTRL_en = false ∨ s.hkRuns = false then
    let t := (s.bump (HKA_CORE_COUNT_refused c)).hwSet HKA_IRQ_STAT_refused
    if byReg then t.hkCause 0xC0 else t
  else if m = 1 then
    let busy := k.want || (s.hkCore (s.hkTurn c)).conv.isSome
    if k.lastReq == some s.cycle || (busy && k.pending) then
      (s.bump (HKA_CORE_COUNT_coalesced c)).hkCause 0xC1
    else s.setHkCore l { k with lastReq := some s.cycle, want := true, pending := busy }
  else if k.running then s
  else s.setHkCore l { k with lastReq := some s.cycle, running := true, want := true }

/-- HK_START: a register start request. -/
def execHkStart (core : Nat) (s : State) : Host.Outcome State Fault Refusal :=
  .next (if core < 2 then s.hkRequest core true else s)

/-- Modes 2 and 3 of core `c` end after the conversion in progress (HKA_COREc_CTRL.stop). -/
def State.hkHalt (s : State) (c : Nat) : State :=
  let l := s.hkLead c
  let k := s.hkCore l
  if k.running then s.setHkCore l { k with running := false, want := false, late := false } else s

/-- HK_STOP. -/
def execHkStop (core : Nat) (s : State) : Host.Outcome State Fault Refusal :=
  .next (if core < 2 then s.hkHalt core else s)

/-- HK_PIN_START: the selected edge of the pin that HKA_COREc_CFG.pin_src names; HKA1's is not used while interleaved
(R572, R577). -/
def execHkPinStart (core : Nat) (s : State) : Host.Outcome State Fault Refusal :=
  .next (if decide (core < 2) && decide (s.get (HKA_CORE_CFG_pin_src core) < 4) && (!s.hk.inter || core == 0) then
    s.hkRequest core false else s)

/-- START_A_CONVERSION: task 4 or 5 (R415, R572). -/
def execStartAConversion (core : Nat) (s : State) : Host.Outcome State Fault Refusal :=
  .next (if core < 2 then s.serve (4 + core) fun s _ _ => s.hkRequest core false else s)

/-- Interleaving changes once both cores are free (R577). -/
def State.hkInterleave (s : State) : State :=
  let free (k : HkCore) : Bool := k.conv.isNone && !k.want && !k.pending && !k.running
  if s.hk.inter = s.on HKA_CTRL_interleave then s
  else if free s.hk.a && free s.hk.b then s.setHk { s.hk with inter := s.on HKA_CTRL_interleave, turn := 0 }
  else s

/-- INTERLEAVE_CHANGE. -/
def execInterleaveChange (s : State) : Host.Outcome State Fault Refusal := .next s.hkInterleave

/-! ### Conversions -/

/-- Core `c` starts a conversion of the channel in force (R568, R575, R577). -/
def State.hkBegin (s : State) (c : Nat) (deferred : Bool) : State :=
  let l := s.hkLead c
  let k := s.hkCore l
  let s1 := s.setHkCore l { k with want := false, late := false }
  let x := s1.hkCore c
  let s2 := s1.setHkCore c { x with
    awake := true, conv := some { ch := s.get (HKA_CORE_CFG_ch l), deferred := deferred || k.late } }
  if s.hk.inter then s2.setHk { s2.hk with turn := 1 - c } else s2

/-- Core `c` may start a conversion now. -/
def State.hkFree (s : State) (c : Nat) : Bool :=
  s.hkRuns && s.hkTurn c == c && (s.hkCore c).conv.isNone

/-- HK_CONVERSION_START: the conversion of a request, or the next one of continuous mode; a core that is powered down has
woken first (R568, R569, R573). -/
def execHkConversionStart (core : Nat) (s : State) : Host.Outcome State Fault Refusal :=
  .next (
    let k := s.hkCore (s.hkLead core)
    if decide (core < 2) && s.hkFree core && (k.want || (k.running && s.hkMode core == 2)) then s.hkBegin core false
    else s)

/-- HK_PERIODIC_GRID: at a grid instant a conversion starts; a core busy with a check or a forced step starts it when it
is free, deferred, and one busy with a conversion starts it then (R570, R573, R576). -/
def execHkPeriodicGrid (core : Nat) (s : State) : Host.Outcome State Fault Refusal :=
  .next (
    let l := s.hkLead core
    let k := s.hkCore l
    if !(decide (core < 2) && s.hkRuns && k.running && s.hkMode core == 3) then s
    else if s.hkFree core && k.forced.isNone then s.hkBegin core false
    else
      let check := match (s.hkCore core).conv with | some v => v.check | none => false
      s.setHkCore l { k with want := true, late := k.late || check || (s.hkCore core).forced.isSome })

/-- HK_POWER_DOWN: 10 us after the end of a conversion without a new one (R569). -/
def execHkPowerDown (core : Nat) (s : State) : Host.Outcome State Fault Refusal :=
  .next (
    let k := s.hkCore core
    if decide (core < 2) && k.conv.isNone && !(s.hkCore (s.hkLead core)).want then s.setHkCore core { k with awake := false }
    else s)

/-! ### Windows -/

/-- A sample instant fell within an episode on VAD (R584, R590). -/
def State.vadAt (s : State) (t : Nat) : Bool :=
  (s.supply.episodes.any fun e => e.rail == 2 && decide ((e.stamp + usUnit) % 2 ^ 64 ≤ t)) ||
  (match s.hk.vadLast with | some (a, z) => decide (a ≤ t) && decide (t ≤ z) | none => false)

/-- The bounds of window `w`: hi serves as both where lo exceeds it (R580). -/
def State.winLo (s : State) (w : Nat) : Nat := min (s.get (HKA_WIN_LIMITS_lo w)) (s.get (HKA_WIN_LIMITS_hi w))

/-- A result returns window `w` in band (R580): within the return range, or equal to the single bound where the range is
empty. With two bounds and an empty range no result does (DEDUCED, notes/assumptions/30.md). -/
def State.winReturns (s : State) (w r : Nat) : Bool :=
  let lo := s.winLo w
  let hi := s.get (HKA_WIN_LIMITS_hi w)
  let h := s.get (HKA_WIN_CFG_hyst w)
  if lo + 2 * h ≤ hi then decide (lo + h ≤ r) && decide (r + h ≤ hi) else decide (lo = hi) && decide (r = lo)

/-- The state of window `w` becomes `out`, with the crossing stamp of R582. -/
def State.winTurn (s : State) (w : Nat) (out : Bool) (st : Nat × Bool) : State :=
  (s.put (HKA_WIN_STAT_out w) (b2n out)).setLevel (30 + w) out st.1 st.2

/-- Window `w` sees a result of its channel with sample stamp `t` (R580 to R582). -/
def State.winSee (s : State) (w r t : Nat) : State :=
  let lo := s.winLo w
  let hi := s.get (HKA_WIN_LIMITS_hi w)
  let h := s.get (HKA_WIN_CFG_hyst w)
  let prev := Sparse.find s.hk.prev w
  let rising := match prev with | some (y0, _) => decide (y0 < r) | none => false
  let keep (s : State) : State := s.setHk { s.hk with prev := Sparse.insert s.hk.prev w (r, t) }
  if s.on (HKA_WIN_STAT_out w) then
    (if s.winReturns w r then
      let x := s.crossing prev r t (if rising then lo + h else hi - h)
      keep (x.2.winTurn w false x.1)
    else keep s)
  else if hi < r ∨ r < lo then
    let x := s.crossing prev r t (if hi < r then hi else lo)
    let s1 := ((x.2.put (HKA_WIN_STAT_above w) (b2n (decide (hi < r)))).put (HKA_WIN_STAT_exit_result w) r).bumpWrap
      (HKA_WIN_STAT_exits w)
    keep ((s1.hwSet HKA_IRQ_STAT_win_exit (2 ^ w)).winTurn w true x.1)
  else keep s

/-- Windows that are enabled and watch channel `ch`. -/
def State.winsOn (s : State) (ch : Nat) : List Nat :=
  (List.range 8).filter fun w => s.on (HKA_WIN_CFG_en w) && s.get (HKA_WIN_CFG_ch w) == ch

/-! ### The result buffer and its ring -/

/-- The HKA body. -/
def State.hkaBody (s : State) : List Byte := s.body 0x0B 0

/-- One monitor packet of the oldest entries, `n` at the most (R585). -/
def State.monitorPacket (s : State) (n : Nat) : State :=
  let es := s.hk.buf.take n
  match es with
  | [] => s
  | e :: _ =>
    let first := (s.hk.next + 2 ^ 32 - s.hk.buf.length) % 2 ^ 32
    let words := [es.length + 2 ^ 16 * s.hk.lost, first, e.2 % 2 ^ 32, e.2 / 2 ^ 32] ++
      es.flatMap fun x => [x.1, x.2 / 2 ^ 16 % 2 ^ 32]
    let s1 := s.setHk { s.hk with buf := s.hk.buf.drop n, lost := 0, aged := false }
    (s1.put HKA_BUF_STATUS_held s1.hk.buf.length).buildCounted (leAt s.hkaBody 1 1) 6 (wordBytes words)

/-- The spool of the monitor ring has room for a packet of `n` entries. -/
def State.monitorRoom (s : State) (n : Nat) : Bool := decide (36 + 8 * n ≤ s.spoolFree (leAt s.hkaBody 1 1))

/-- A packet leaves when packet_entries entries are held or the oldest has reached its age, as soon as the spool has room (R585). -/
def State.monitorFlush (s : State) : State :=
  let full := leAt s.hkaBody 2 2
  let n := min full s.hk.buf.length
  if s.has 0x0B 0 && decide (0 < n) && (s.hk.aged || decide (full ≤ s.hk.buf.length)) && s.monitorRoom n then s.monitorPacket n else s

/-- MONITOR_PACKET_AGE: the oldest entry has been held for max_age_us (R585). -/
def execMonitorPacketAge (s : State) : Host.Outcome State Fault Refusal :=
  .next (if s.has 0x0B 0 && !s.hk.buf.isEmpty then (s.setHk { s.hk with aged := true }).monitorFlush else s)

/-- One entry enters the buffer, or is lost while it is full (R584, R586). -/
def State.hkEntry (s : State) (ch word stamp : Nat) : State :=
  if s.hk.buf.length < 2048 then
    let h := s.hk
    let s1 := s.setHk { h with buf := h.buf ++ [(word, stamp)], next := (h.next + 1) % 2 ^ 32, losing := false }
    (s1.put HKA_BUF_STATUS_held s1.hk.buf.length).monitorFlush
  else
    let s1 := ((s.setHk { s.hk with lost := satAdd 16 s.hk.lost 1, losing := true }).bump HKA_BUF_STATUS_lost).hwSet
      HKA_IRQ_STAT_lost
    if s.hk.losing then s1 else (s1.report 0xC4 17 [ch]).hkCause 0xC4

/-! ### Open wires -/

/-- The check mode of AIN `n` (R578). -/
def State.owMode (s : State) (n : Nat) : Nat := bits (s.reg aHKA_OW_CFG).toNat (4 * n) 2

/-- AIN `n` is declared open. -/
def State.isOpen (s : State) (ch : Nat) : Bool := decide (ch < 8) && bit (s.get HKA_OW_STATUS_open) ch

/-- A check result of AIN `n`: two equal ones in a row declare it open or closed (R579). -/
def State.owCheck (s : State) (n code : Nat) : State :=
  let high := decide (4032 ≤ code)
  let run := match Sparse.find s.hk.checks n with | some (b, k) => if b = high then k + 1 else 1 | none => 1
  let s1 := s.setHk { s.hk with checks := Sparse.insert s.hk.checks n (high, min run 2) }
  if run < 2 ∨ s.isOpen n = high then s1
  else
    let c := if high then 0xC2 else 0xC3
    (((s1.put HKA_OW_STATUS_open (setBits (s1.get HKA_OW_STATUS_open) n 1 (b2n high))).hwSet HKA_IRQ_STAT_open_wire).report
      c 17 [n]).hkCause c

/-! ### Self-calibration -/

/-- y of a core's decisions under its weights (R305). -/
def HkCore.combine (k : HkCore) (d : Nat) : Int := Sys2Proof.Machine.combine (k.weights.map Int.ofNat) d

/-- The changes that wait come into force, each item saturating; an onset is logged once (R309, R588, R590). -/
def State.hkApply (s : State) (c : Nat) : State :=
  let k := s.hkCore c
  match k.change with
  | none => s
  | some ch =>
    let trim (x d : Int) : Int × Bool :=
      let y := saturate (-64) 63 (x + d)
      (y.1, y.2 != 0 && y.1 != x)
    let o := trim k.off ch.off
    let g := trim k.gain ch.gain
    let ws := (k.weights.zip ch.weights).map fun p => weightStep 0 65535 (p.1 : Int) p.2
    let onset := o.2 || g.2 || ws.any (·.2)
    let s1 := s.setHkCore c { k with
      off := o.1, gain := g.1, weights := ws.map fun p => p.1.toNat, change := none }
    if onset then ((s1.hwSet HKA_IRQ_STAT_cal_sat).report 0xC6 17 [c]).hkCause 0xC6 else s1

/-- A calibration step of core `c` that decides `d` (R306 to R308, R588, R590). The changes of stages 1 and 2, which a
slice keeps as corrections, go to the core's own weights (DESIGN CHOICE, notes/assumptions/27.md). -/
def State.hkStep (s : State) (c d : Nat) : State :=
  let s1 := s.hkApply c
  let k := s1.hkCore c
  let base := { k with awake := true, calDue := false, forced := none }
  if s1.vadAt s1.sampleStamp then s1.setHkCore c base
  else
    let x := Bank.step { weights := k.weights, slices := [{ k := k.k }] } 0 d false
    let ws := (List.range 14).map fun j => if j = 0 then x.c1 else if j = 1 then x.c2 else x.weights.getD j 0
    let errs := (x.err :: k.errs).take 16
    let s2 := s1.setHkCore c { base with
      k := (k.k + 1) % 16, errs := errs, change := some { off := x.off, gain := x.gain, weights := ws } }
    s2.put (if c = 0 then HKA_CAL_res0 else HKA_CAL_res1) (residual errs)

/-- A forced step takes the period of the next conversion, which then carries deferred (R589). -/
def State.hkForce (s : State) (c d : Nat) : State :=
  let s1 := ((s.hkStep c d).bump HKA_CAL_forced).hkCause 0xC5
  let l := s1.hkLead c
  let k := s1.hkCore l
  let s2 := if k.want || k.running then s1.setHkCore l { k with late := true } else s1
  if s2.hk.inter && s2.hk.turn == c && k.running then s2.setHk { s2.hk with turn := 1 - c } else s2

/-- HK_CAL_DUE: a due step runs in the first free period of its core (R588, R589). -/
def execHkCalDue (core decision : Nat) (s : State) : Host.Outcome State Fault Refusal :=
  .next (
    let k := s.hkCore core
    let l := s.hkCore (s.hkLead core)
    if !(decide (core < 2) && s.on HKA_CTRL_en && s.hkRuns) then s
    else if k.conv.isSome || l.want || l.pending || (l.running && s.hkMode core == 2) then s.setHkCore core { k with calDue := true }
    else s.hkStep core decision)

/-- HK_CAL_FORCED: a step that has waited 1 ms takes the next conversion period, once the conversion in progress has ended
(R589). -/
def execHkCalForced (core decision : Nat) (s : State) : Host.Outcome State Fault Refusal :=
  .next (
    let k := s.hkCore core
    if !(decide (core < 2) && s.on HKA_CTRL_en && s.hkRuns && k.calDue) then s
    else if k.conv.isSome then s.setHkCore core { k with forced := some decision }
    else s.hkForce core decision)

/-! ### Results -/

/-- The latest codes of the temperature channels (R657). -/
def State.thermalCodes (s : State) : List (Nat × Nat) :=
  ([8, 9, 10, 11].filter fun c => s.on (HKA_RESULT_valid c)).map fun c => (c, s.get (HKA_RESULT_result c))

/-- The next channel of a scan: the next higher bit of the mask, wrapping (R575). -/
def nextScan (mask ch : Nat) : Nat :=
  match ((List.range 32).map fun i => (ch + 1 + i) % 32).find? fun i => bit mask i with
  | some c => c
  | none => ch

/-- A result of channel `ch` by core `c`, with code `r` and sample stamp `t` (R575, R580 to R586, R657). -/
def State.hkDeliver (s : State) (c : Nat) (v : HkConv) (r t : Nat) : State :=
  let ch := v.ch
  let brown := s.vadAt t
  let s1 := if ch < 8 ∧ s.owMode ch = 3 then s.owCheck ch r else s
  let opened := s1.isOpen ch
  let s2 := ((((s1.put (HKA_RESULT_result ch) r).put (HKA_RESULT_valid ch) 1).put (HKA_RESULT_core ch) c).put
    (HKA_RESULT_open ch) (b2n opened)).put (HKA_RESULT_brownout ch) (b2n brown)
  let s3 := (s2.bumpWrap (HKA_RESULT_count ch)).hwSet (if c = 0 then HKA_IRQ_STAT_done0 else HKA_IRQ_STAT_done1)
  let s4 := (s3.winsOn ch).foldl (fun s w => s.winSee w r t) s3
  let out := (s4.winsOn ch).any fun w => s4.on (HKA_WIN_STAT_out w)
  let word := r + 2 ^ 12 * ch + 2 ^ 17 * c + 2 ^ 18 * b2n opened + 2 ^ 19 * b2n out + 2 ^ 20 * b2n brown +
    2 ^ 21 * b2n v.deferred
  let s5 := if s4.has 0x0B 0 && bit (leAt s4.hkaBody 0 1) c then s4.hkEntry ch word t else s4
  if decide (8 ≤ ch) && decide (ch ≤ 11) then (s5.put SAFE_THERMAL_STAT_stale 0).thermalLook s5.thermalCodes else s5

/-- A check conversion is due after this conversion of AIN `ch` (R578). -/
def State.owDue (s : State) (ch : Nat) : Bool × State :=
  let n := Sparse.get 0 s.hk.since ch + 1
  let every := if s.owMode ch = 1 then 16 else if s.owMode ch = 2 then 4 else 0
  if ch < 8 ∧ every ≠ 0 then
    (decide (every ≤ n), s.setHk { s.hk with since := Sparse.put 0 s.hk.since ch (if every ≤ n then 0 else n) })
  else (false, s)

/-- What ends a conversion of core `c`: its own corrections and the forced step come, the scan moves on, and a pending
request is next (R574, R575, R588, R589). -/
def State.hkEnd (s : State) (c : Nat) : State :=
  let s1 := s.hkApply c
  let l := s1.hkLead c
  let s2 := if s1.on (HKA_CORE_CFG_scan l) then
      s1.put (HKA_CORE_CFG_ch l) (nextScan (s1.get (HKA_CORE_SCAN_mask l)) (s1.get (HKA_CORE_CFG_ch l)))
    else s1
  let k := s2.hkCore l
  let s3 := if k.pending then s2.setHkCore l { k with want := true, pending := false } else s2
  match (s3.hkCore c).forced with
  | some d => s3.hkForce c d
  | none => s3

/-- HK_RESULT: the conversion of a core ends with its 14 decisions, d_i in bit i - 1 (R305, R568, R578 to R586). -/
def execHkResult (core decision : Nat) (s : State) : Host.Outcome State Fault Refusal :=
  .next (match (s.hkCore core).conv with
  | none => s
  | some v =>
    if decide (2 ≤ core) || !s.hkRuns then s
    else
      let k := s.hkCore core
      let r := (codeOf (k.combine (decision % 2 ^ 14))).toNat
      let t := s.sampleStamp
      if v.check then
        ((s.owCheck v.ch r).setHkCore core { k with conv := none }).hkEnd core
      else
        let s1 := (s.setHkCore core { k with conv := none }).hkDeliver core v r t
        let w := s1.owDue v.ch
        if w.1 then
          w.2.setHkCore core { w.2.hkCore core with conv := some { ch := v.ch, check := true } }
        else w.2.hkEnd core)

/-! ### Register writes -/

/-- A write to HKA_CTRL: en = 0 stops both cores after the conversion in progress; interleave waits for free cores. -/
def State.hkaCtrlWrite (s : State) (v : Word) : State :=
  let s1 := s.plainWrite aHKA_CTRL v
  let stop (k : HkCore) : HkCore := { k with running := false, want := false, pending := false, late := false, calDue := false, forced := none }
  let s2 := if s1.on HKA_CTRL_en then s1 else (s1.setHk { s1.hk with a := stop s1.hk.a, b := stop s1.hk.b }).showHk
  s2.hkInterleave

/-- A write to HKA_COREc_CFG: a change of mode ends modes 2 and 3 (R573). -/
def State.hkaCfgWrite (s : State) (c : Nat) (v : Word) : State :=
  let old := s.get (HKA_CORE_CFG_mode c)
  let s1 := s.plainWrite (aHKA_CORE_CFG c) v
  if s1.get (HKA_CORE_CFG_mode c) = old ∨ s1.hkLead c ≠ c then s1 else s1.hkHalt c

/-- A write to HKA_COREc_CTRL. -/
def State.hkaCoreCtrl (s : State) (c : Nat) (v : Word) : State :=
  let s1 := if bit v.toNat 0 then s.hkRequest c true else s
  if bit v.toNat 1 then s1.hkHalt c else s1

/-- A write to HKA_WINw_CFG: a window that is disabled, or whose channel changes, is in band without a previous sample
(R581, R582). -/
def State.hkaWinWrite (s : State) (w : Nat) (v : Word) : State :=
  let s1 := s.plainWrite (aHKA_WIN_CFG w) v
  let was := s.on (HKA_WIN_CFG_en w)
  let is := s1.on (HKA_WIN_CFG_en w)
  if was = is ∧ s1.get (HKA_WIN_CFG_ch w) = s.get (HKA_WIN_CFG_ch w) then s1
  else
    let s2 := (s1.setHk { s1.hk with prev := Sparse.erase s1.hk.prev w }).put (HKA_WIN_STAT_out w) 0
    s2.arrive (30 + w) false

/-- The HKA section goes: entries held are built into packets before the ring ceases to exist (19, The HKA section is removed
by an overlay). -/
def State.hkDrain (s : State) : State :=
  let n := max 1 (leAt s.hkaBody 2 2)
  (List.range (ceilDiv s.hk.buf.length n)).foldl (fun s _ => s.monitorPacket n) s

end Sys2Proof.Machine
end

