-- ==== Sys2Proof/Machine/Time.lean ====
section
/-! DEFINITION. The time base, its changes and timers (R431 to R438), and the tick of the SYS clock. -/

namespace Sys2Proof.Machine

/-! ### Changes of the time base -/

/-- The time base takes a value of time base format plus an elapsed time in units of 2^-24 ns. -/
def State.setBase (s : State) (b : Nat) : State := s.withTime { s.time with base := b % 2 ^ 72 }

/-- A step (R437): the epoch rises, and the values before and after are logged. -/
def State.timeStep (s : State) (before : Nat) : State :=
  let after := s.now
  ((s.bumpWrap TIME_STATUS_epoch).hwSet EVF_IRQ_STAT_time_step).log
    { cause := 0, kind := 3, block := 13, stamp := after,
      args := [before % 2 ^ 32, before / 2 ^ 32, after % 2 ^ 32, after / 2 ^ 32] }

/-- The part of a slew not yet absorbed becomes `d`, in units of 2^-24 ns. -/
def State.setSlew (s : State) (d : Int) : State :=
  (s.withTime { s.time with slew := d }).put TIME_STATUS_slewing (b2n (d != 0))

/-- An addition is slewed (R437): slew_en is 1 and its magnitude does not exceed the limit. -/
def State.slews (s : State) (d : Int) : Bool :=
  s.on TIME_CTRL_slew_en && decide (d.natAbs ≤ s.get TIME_SLEW_LIMIT_ns * 65536)

/-- A host write, or a RATE message, sets TIME_INC; 0 is ignored (R432). -/
def State.setInc (s : State) (v : Nat) : State := if v % 2 ^ 32 = 0 then s else s.put TIME_INC_inc v

/-- The self-clearing bit of TIME_CTRL that asks for a change of this kind. -/
def timeBit : TimeKind → Fld
  | .add => TIME_CTRL_add
  | _ => TIME_CTRL_set

/-- One change of the time base is applied (R435 to R438). -/
def State.timeApply (s : State) (c : TimeChange) : State :=
  let before := s.now
  let s0 := s.withTime { s.time with changed := true }
  let s1 := match c.kind with
    | .rate => s0.setInc c.value
    | .set =>
      let t := ((s0.setSlew 0).setBase (c.value * 256 + c.elapsed)).timeStep before
      t.put TIME_STATUS_synced 1
    | .add =>
      let d := toSigned 64 c.value
      let t :=
        if s0.slews d then s0.setSlew (d * 256)
        else
          ((s0.setSlew 0).setBase (ofSigned 72 ((s0.time.base : Int) + d * 256))).timeStep before
      if c.prio = 1 then t.put TIME_STATUS_synced 1 else t
  let s2 := if c.prio = 1 then s1.hwSet EVF_IRQ_STAT_time_msg
    else if c.prio = 0 then (s1.put TIME_CTRL_pps_arm 0).hwSet EVF_IRQ_STAT_pps
    else s1.put (timeBit c.kind) 0
  s2.pulse 84

/-- The priority of the change of the time base that a command of this cycle brings, if it brings one (R436). -/
def State.timePrio (s : State) (c : Instr) : Option Nat :=
  match c with
  | .ppsLoad _ _ => if s.on TIME_CTRL_pps_arm && decide (s.get TIME_CTRL_pps_src < 6) then some 0 else none
  | .timeSet _ _ | .timeAdd _ _ | .timeRate _ => if s.on LNK_STATUS_bc_aligned then some 1 else none
  | _ => none

/-- A change loses in this cycle (R436): one has been applied already, or one of higher priority follows. -/
def State.timeLoses (s : State) (prio : Nat) : Bool :=
  s.time.changed || s.restOfCycle.any fun c => match s.timePrio c with | some p => decide (p < prio) | none => false

/-- A change reaches the time base: at most one is applied in a cycle, by priority; the others wait, and the bit of
TIME_CTRL that asked for one reads 1 until then (R8, R436). -/
def State.timeChange (s : State) (c : TimeChange) : State :=
  if s.timeLoses c.prio then
    let s1 := s.withTime { s.time with waiting := s.time.waiting ++ [c] }
    if c.prio = 2 then s1.put (timeBit c.kind) 1 else s1
  else s.timeApply c

/-- The stamp of the reference symbol of a message, `elapsed` before now (R435). -/
def State.rxStamp (s : State) (elapsed : Nat) : State :=
  s.put64 aTIME_RX_LO aTIME_RX_HI ((s.time.base + 2 ^ 72 - elapsed % 2 ^ 72) / 256 % 2 ^ 64)

/-- The resolution to which the reference instant of a message is stamped, 1/1 024 µs (R547), in units of 2^-24 ns. -/
def rxUnit : Nat := 2 ^ 24 * 1000 / 1024

/-- A time message is received only while the back-channel is aligned (R533); it changes the time base of `t`. -/
def State.timeMessage (s t : State) (c : TimeChange) : State := if s.on LNK_STATUS_bc_aligned then t.timeChange c else s

/-- TIME_SET: V = T + TIME_PATH_DELAY at the message's reference symbol, `elapsed` units of 1/1 024 µs ago (R435,
R547). -/
def execTimeSet (time elapsed : Nat) (s : State) : Host.Outcome State Fault Refusal :=
  .next (s.timeMessage (s.rxStamp (elapsed * rxUnit))
    { kind := .set, prio := 1, value := (time + s.get TIME_PATH_DELAY_delay) % 2 ^ 64, elapsed := elapsed * rxUnit })

/-- TIME_ADD: the message's signed 64-bit offset is added (R435, R437). -/
def execTimeAdd (offset elapsed : Nat) (s : State) : Host.Outcome State Fault Refusal :=
  .next (s.timeMessage (s.rxStamp (elapsed * rxUnit))
    { kind := .add, prio := 1, value := offset % 2 ^ 64, elapsed := elapsed * rxUnit })

/-- TIME_RATE: the message writes TIME_INC (R435). -/
def execTimeRate (inc : Word) (s : State) : Host.Outcome State Fault Refusal :=
  .next (s.timeMessage s { kind := .rate, prio := 1, value := inc.toNat, elapsed := 0 })

/-- TIME_LOAD. -/
def State.timeLoad (s : State) : Nat := s.get64 aTIME_LOAD_LO aTIME_LOAD_HI

/-- TIME_CTRL.set or .add written 1 (R435): TIME_LOAD as it stands, at this tick; a bit that still reads 1 asks for nothing
more (R8). -/
def State.timeAsked (s : State) (k : TimeKind) : State :=
  if s.on (timeBit k) then s else s.timeChange { kind := k, prio := 2, value := s.timeLoad, elapsed := 0 }

/-- TIME_CTRL_SET: loads TIME_LOAD; the reference instant is this tick (R435). -/
def execTimeCtrlSet (s : State) : Host.Outcome State Fault Refusal := .next (s.timeAsked .set)

/-- TIME_CTRL_ADD: adds TIME_LOAD as a signed value (R435, R437). -/
def execTimeCtrlAdd (s : State) : Host.Outcome State Fault Refusal := .next (s.timeAsked .add)

/-- PPS_ARM: pps_arm reads 1 until the PPS load is applied (R435). -/
def execPpsArm (s : State) : Host.Outcome State Fault Refusal := .next (s.put TIME_CTRL_pps_arm 1)

/-- PPS_LOAD: the selected edge of pps_src arrives in eighth `eighth`, `elapsed` ago: its pin stamp shows in TIME_PPS,
and an armed load takes TIME_LOAD at that instant (R435, R440). pps_src 6 and 7 select no pin. -/
def execPpsLoad (eighth elapsed : Nat) (s : State) : Host.Outcome State Fault Refusal :=
  .next (if 6 ≤ s.get TIME_CTRL_pps_src then s
  else
    let s1 := s.put64 aTIME_PPS_LO aTIME_PPS_HI (s.pinStamp eighth)
    if s.on TIME_CTRL_pps_arm then
      s1.timeChange { kind := .set, prio := 0, value := s.timeLoad, elapsed := elapsed }
    else s1)

/-- A write of TIME_CTRL: the stored fields, then each self-clearing bit written 1 (R435). -/
def State.timeCtrlWrite (s : State) (v : Word) : State :=
  let s1 := s.plainWrite aTIME_CTRL v
  let s2 := if bit v.toNat 2 then s1.put TIME_CTRL_pps_arm 1 else s1
  let s3 := if bit v.toNat 0 then s2.timeAsked .set else s2
  if bit v.toNat 1 then s3.timeAsked .add else s3

/-- A read of TIME_NOW_LO through port `p` captures the upper word for that port. -/
def State.captureNow (s : State) (p : Port) : State :=
  s.withTime { s.time with captured := Sparse.put 0 s.time.captured p.num (s.now / 2 ^ 32) }

/-- TIME_NOW_CAPTURE: that read. -/
def execTimeNowCapture (port : Port) (s : State) : Host.Outcome State Fault Refusal := .next (s.captureNow port)

/-- The offset that a slew absorbs in a SYS cycle (R437). -/
def State.slewStep (s : State) : Nat := s.get TIME_INC_inc / 2 ^ 11

/-- SLEW_ABSORBED: in the last cycle of a slew, where no more than one step of it is left, the exact remainder is added and
slewing clears (R437). -/
def execSlewAbsorbed (s : State) : Host.Outcome State Fault Refusal :=
  .next (if s.time.slew ≠ 0 ∧ s.time.slew.natAbs ≤ s.slewStep then
    (s.setBase (ofSigned 72 ((s.time.base : Int) + s.time.slew))).setSlew 0
  else s)

/-! ### Periodic timers -/

/-- Going from `a` to `b`, a count passes or reaches a value n with (n - phase) mod period = 0. -/
def crosses (a b phase period : Int) : Bool := decide (a < b) && (a - phase) / period != (b - phase) / period

/-- Timer `i` fires in this cycle: the integer nanoseconds reached or passed a matching value, moving forwards (R438,
Periodic timers); the count wraps after 2^48 ns (R434). -/
def State.timerDue (s : State) (i : Nat) : Bool :=
  let p : Int := s.get (TIME_TIMER_PERIOD_ns i)
  let ph : Int := s.get (TIME_TIMER_PHASE_ns i)
  let a : Nat := s.time.prev / 2 ^ 24
  let b : Nat := s.time.base / 2 ^ 24
  p != 0 && !s.time.timersFired.contains i &&
    (if a ≤ b then decide (b - a < 2 ^ 47) && crosses a b ph p
     else decide (2 ^ 47 < a - b) && (crosses a (2 ^ 48 - 1) ph p || crosses (-1) b ph p))

/-- PERIODIC_TIMER: timer 0 or 1 fires source 85 or 86. -/
def execPeriodicTimer (timer : Nat) (s : State) : Host.Outcome State Fault Refusal :=
  .next (if decide (timer < 2) && s.timerDue timer then
    (s.withTime { s.time with timersFired := timer :: s.time.timersFired }).pulse (85 + timer)
  else s)

/-! ### The tick -/

/-- The waiting change of the highest priority, and the rest (R436). -/
def takeChange (cs : List TimeChange) : Option (TimeChange × List TimeChange) :=
  match [0, 1, 2].findSome? fun p => cs.find? fun c => c.prio == p with
  | none => none
  | some c => some (c, cs.erase c)

/-- The increment of one cycle: TIME_INC and, during a slew, up to TIME_INC >> 11 of its offset (R431, R437). -/
def State.increment (s : State) : Int × Int :=
  let inc := s.get TIME_INC_inc
  let step : Int := s.slewStep
  let part := max (-step) (min step s.time.slew)
  ((inc : Int) + part, s.time.slew - part)

/-- The time base advances by one cycle; changes that wait grow older, and one of them is applied (R431, R436). -/
def State.timeTick (s : State) : State :=
  let inc := s.increment
  let wait := s.time.waiting.map fun c => { c with elapsed := c.elapsed + s.get TIME_INC_inc }
  let b := ofSigned 72 ((s.time.base : Int) + inc.1)
  let s1 := s.withTime { s.time with base := b, prev := s.time.base, changed := false, waiting := wait, timersFired := [] }
  let s2 := if s.time.slew = 0 then s1 else s1.setSlew inc.2
  match takeChange wait with
  | none => s2
  | some (c, rest) => (s2.withTime { s2.time with waiting := rest }).timeApply c

/-- The even stretches of the time base follow its value, those of the frame in progress and the recent ones (R444, R568). -/
def State.noteLine (s : State) : State :=
  let ls := s.timeLines
  s.withTime { s.time with lines := if s.sht.running then ls else recentLines s.cycle ls }

/-- Source values, for the edges of the next cycle. -/
def State.sources (s : State) : Nat := maskOf ((List.range 96).filter s.source)

/-- Crossroads at the end of a cycle: edges enter the hold windows, each unit's condition becomes its previous one,
and pulses of the next cycle begin (R413, R419 to R421). -/
def State.eventsTick (s : State) : State :=
  let ch := s.channels
  let note (t : List (Nat × Nat)) (v : Bool) :=
    ((List.range 32).filter fun c => bit ch c == v && bit s.evf.chPrev c != v).foldl
      (fun t c => Sparse.insert t c s.cycle) t
  (s.withEvf { s.evf with
      pulses := [], changes := [], pulsesNext := [], srcPrev := s.sources, chPrev := ch
      rise := note s.evf.rise true, fall := note s.evf.fall false
      units := (List.range 8).map fun n =>
        { s.unit n with
          prevTrue := s.condition n, fired := false
          since := if s.condition n then (s.unit n).since.orElse fun _ => s.makingChange n else none } })

/-- Requests made for the cycle that begins carry its time base value (R427). -/
def State.stampRequests (s : State) : State :=
  s.withEvf { s.evf with
    requests := s.evf.requests.map fun r => if r.cycle = s.cycle then { r with made := s.now } else r }

/-- The time since the release of reset, one cycle later; it stands once the boot is complete (05, SYS_BOOT_TIME). -/
def State.bootElapsed (s : State) : Nat :=
  if s.on SYS_BOOT_REPORT_complete then s.boot.elapsed else s.boot.elapsed + s.get TIME_INC_inc

/-- The marks of a cycle end: counts, snapshots, held shadows and fresh bits are per cycle (R13, R15, R663, R664). -/
def State.cycleEnd (s : State) : State :=
  (((((((s.withCycle (s.cycle + 1)).withHeldOld []).withFreshBits []).withCnt { s.cnt with counted := [], cleared := [], snapped := false }).withArc { s.arc with frozenNow := [] }).withSht { s.sht with hostExp := s.sht.hostExp || s.sht.hostNew, hostNew := false }).withPorts { s.ports with irqRelease := s.ports.irqRelease - 1 }).withBoot { s.boot with elapsed := s.bootElapsed }

/-- One cycle of the SYS clock; it stands still while the device is held in reset or in OFF (R625). A burst on a control port
takes such cycles for its words (R188). -/
def State.sysCycle (s : State) : State :=
  if s.portsDead then s
  else
    let next := s.evf.pulsesNext
    let s1 := (s.eventsTick.cycleEnd).timeTick.noteLine.stampRequests.arcTick.recordTick.logFlush.monitorFlush
    (((next.foldl State.pulse s1).count 122).deliver).refault

end Sys2Proof.Machine
end

