-- ==== Sys2Proof/Machine/Link.lean ====
section
/-! DEFINITION. Olaok Link: units, intervals and markers, Roundabout, the replay buffer, bring-up, rate steps and lane
states (R509 to R549), lane loss, guarantees and re-admission (R550 to R567). -/

namespace Sys2Proof.Machine

/-! ### Line coding (R511 to R522) -/

/-- The 8 bytes of a control unit (R520). -/
def controlUnit (kind lsn : Nat) : List Byte :=
  let b := leBytes 4 (2 ^ 24 * kind + 2 ^ 20 * 0xF + lsn % 2 ^ 16) ++ leBytes 3 0
  b ++ leBytes 1 (crc8 b)

/-- A unit's bytes. -/
def LinkUnit.bytes : LinkUnit → List Byte
  | .idle => controlUnit 0 0
  | .sync l => controlUnit 1 l
  | .rsync l => controlUnit 2 l
  | .packet _ p => p.bytes

/-- A unit's length. -/
def LinkUnit.size : LinkUnit → Nat
  | .packet _ p => p.size
  | _ => 8

/-- Marker of lane `n` (R515). -/
def markerBytes (n : Nat) (restripe : Bool) (rate counter offset map : Nat) : List Byte :=
  let b1 := n + 2 ^ 3 * b2n restripe + 2 ^ 4 * rate
  let c := crc8 ([b1, counter % 256, counter / 256, offset % 256, offset / 256, map].flatMap (leBytes 1))
  [0x5A, b1, 0xA5, counter % 256, 0x5A, counter / 256, 0xA5, offset % 256, 0x5A, offset / 256, 0xA5, map, 0x5A, c, 0xA5,
    0x5A].flatMap (leBytes 1)

/-- The bits of a byte string, bit 0 of each byte first (R511). -/
def bitsOf (bs : List Byte) : List Bool := bs.flatMap fun b => (List.range 8).map (bit b.toNat)

/-- The seed of lane `n` (R512). -/
def laneSeed (n : Nat) : Nat := 0x7FFFFFFF - n * 0x01111111

/-- The scrambled bits, from register `r` (R512). -/
def scramble : Nat → List Bool → List Bool
  | _, [] => []
  | r, d :: ds =>
    let p := bit r 30 != bit r 27
    (d != p) :: scramble ((2 * r + b2n p) % 2 ^ 31) ds

/-- Stuffing (R513): `n` equal bits `v` counted so far; a complement follows the 48th, but not after the last bit. -/
def stuff : Bool → Nat → List Bool → List Bool
  | _, _, [] => []
  | v, n, d :: ds =>
    let m := if d = v ∧ n ≠ 0 then n + 1 else 1
    if m = 48 ∧ ds ≠ [] then d :: (!d) :: stuff d 0 ds else d :: stuff d m ds

/-- Alternating bits that begin with `b` (R514). -/
def alternating : Bool → Nat → List Bool
  | _, 0 => []
  | b, n + 1 => b :: alternating (!b) n

/-- One interval of lane `n`: marker, stuffed payload, and fill up to 267 733 UI (R512 to R514). -/
def lineBits (n : Nat) (marker payload : List Byte) : List Bool :=
  let body := stuff false 0 (scramble (laneSeed n) (bitsOf payload))
  let sent := bitsOf marker ++ body
  sent ++ alternating (!(body.getLast?.getD true)) (267733 - sent.length)

/-- The payload of the lane with rank `r` of `l`: blocks r, r + l, … of the aggregate stream (R518). -/
def striped (r l : Nat) (agg : List Byte) : List Byte :=
  (List.range 4096).flatMap fun k => sliceBytes agg (8 * (r + l * k)) 8

/-! ### State of the link -/

/-- The link part replaced. -/
def State.setLink (s : State) (l : LinkSt) : State := s.withLink l

/-- LNK_STATUS.state (R536): 0 DISABLED, 1 DETECT, 2 CONFIG, 3 ACTIVE, 4 STEP, 5 LOW. -/
def State.linkState (s : State) : Nat := s.get LNK_STATUS_state

/-- The lane map in force. -/
def State.laneMap (s : State) : Nat := s.get LNK_STATUS_lanes

/-- Aggregate bytes of an interval (R518). -/
def State.intervalBytes (s : State) : Nat := 32768 * popCount 8 s.laneMap

/-- The aggregate byte after the last unit of the interval in progress. -/
def LinkSt.pos (l : LinkSt) : Nat := l.lead.length + (l.stream.map LinkUnit.size).sum

/-- The aggregate stream of the interval in progress, IDLE units where nothing has been sent yet. -/
def State.aggregate (s : State) : List Byte :=
  let l := s.link
  let b := l.lead ++ l.stream.flatMap LinkUnit.bytes
  let n := s.intervalBytes
  (b ++ (List.range (ceilDiv (n - b.length) 8)).flatMap fun _ => LinkUnit.idle.bytes).take n

/-- The line bits of lane `n` in the interval in progress, with its polarity (R510); none where it stands idle: outside
DETECT to STEP, and while SYNB has no lock (R536). A probed lane sends zeros (R563). -/
def State.laneLine (s : State) (n : Nat) : List Bool :=
  let probing := bit (s.get LNK_LANE_STATUS_probing) n
  if 1 ≤ s.linkState ∧ s.linkState ≤ 4 ∧ s.clk.b.locked ∧ (bit s.laneMap n ∨ probing) then
    let m := markerBytes n (s.link.restripe && !probing) (s.get LNK_STATUS_rate) (s.get LNK_MARKER_counter)
      s.link.lead.length s.laneMap
    let rank := ((List.range n).filter (bit s.laneMap)).length
    let payload := if probing then List.replicate 32768 0#8 else striped rank (popCount 8 s.laneMap) s.aggregate
    (lineBits n m payload).map fun b => b != bit (s.get LNK_POLARITY_inv) n
  else []

/-- A cause of the link: LNK_STATUS.cause and the event log (R549, R659). -/
def State.linkCause (s : State) (c arg : Nat) : State := (s.put LNK_STATUS_cause c).report c 16 [arg]

/-- Bytes held in the replay buffer (R525). -/
def LinkSt.fill (l : LinkSt) : Nat := (l.held.map fun h => h.2.size).sum

/-- LNK_LSN, LNK_REPLAY_FILL and LNK_LANE_STATUS.probing follow the link; a lane carries payload in ACTIVE (R413). -/
def State.showLink (s : State) : State :=
  let l := s.link
  let next := s.get LNK_LSN_next
  let s1 := (s.put LNK_LSN_oldest (match l.held with | [] => next | h :: _ => h.1)).put LNK_REPLAY_FILL_bytes l.fill
  let s2 := s1.put LNK_LANE_STATUS_probing (maskOf ((l.probes.filter Probe.begun).map Probe.lane))
  let act := if s.linkState = 3 then s.laneMap else 0
  ((List.range 8).foldl (fun s n => s.arrive (74 + n) (bit act n)) s2).arrive 82 (act != 0)

/-- A link-management packet on ring 0 (R535). -/
def State.manage (s : State) (code : Nat) (ws : List Nat) : State :=
  s.buildCounted 0 9 (wordBytes (code :: ws.map (· % 2 ^ 32)))

/-- The ring 0 sequence number of the last packet built. -/
def State.lastSeq (s : State) : Nat := (s.get (RING_SEQ_next 0) + 65535) % 65536

/-! ### Removing a ring (R133) -/

/-- A ring ceases to exist: its registers and its spool. -/
def State.dropRing (s : State) (n : Nat) : State :=
  let s1 := [aRING_DESC0 n, aRING_DESC1 n, aRING_CLASS n, aRING_CTRL n, aRING_SEQ n, aRING_FRAMES n, aRING_FILL n,
    aRING_LAST_FRAME n].foldl (fun s a => ((s.setReg a 0).setLive a 0).withHeldOld (Sparse.erase s.heldOld a)) s
  ((s1.setRing n {}).put RING_STATUS_rings (((List.range 256).filter s1.ringExists).length)).showCapacity

/-- A ring that waits to be removed goes once its spool is empty and no run of its programs is left (R133, R38). -/
def State.removeDue (s : State) (n : Nat) : State :=
  let r := s.ring n
  if r.removing && r.spool.isEmpty && !(s.npc.runs.any fun q => q.plan.ring == n) then s.dropRing n else s

/-! ### Guarantees (R559 to R562) -/

/-- Shares per lane at a rate code (R137). -/
def laneShares (rate : Nat) : Nat := nth [1, 2, 4, 9] rate

/-- The capacity of the lane map and rate in force. -/
def State.linkCapacity (s : State) : Nat := popCount 8 s.laneMap * laneShares (s.get LNK_STATUS_rate)

/-- Ring `a` ranks before ring `b`: descending priority, then descending shares, then ascending number (R559). -/
def State.ranksBefore (s : State) (a b : Nat) : Bool :=
  let pa := s.get (RING_DESC0_priority a)
  let pb := s.get (RING_DESC0_priority b)
  let sa := s.get (RING_CLASS_shares a)
  let sb := s.get (RING_CLASS_shares b)
  decide (pb < pa) || (pa == pb && (decide (sb < sa) || (sa == sb && decide (a < b))))

/-- A list of rings in the order of R559. -/
def State.ranked (s : State) (rs : List Nat) : List Nat := rs.mergeSort fun a b => a == b || s.ranksBefore a b

/-- The same for the replayed frame in progress of a demoted replay ring (R560). -/
def State.demoteReplays (s : State) (n : Nat) : State :=
  s.regionDefs.foldl
    (fun s e =>
      match (s.region e.1).sending with
      | none => s
      | some x =>
        if e.2.ring = n ∧ x.reserved = 0 then
          let h := s.slot e.2 x.slot
          let rest := (h.rows - x.row) * (h.bytes / h.rows + 28) + 36 + 276
          let r := s.ring n
          if rest ≤ s.spoolFree n then
            (s.setRing n { r with reserved := r.reserved + rest }).setRegion e.1
              { s.region e.1 with sending := some { x with reserved := rest } }
          else s.setRegion e.1 { s.region e.1 with sending := some { x with tight := true } }
        else s) s

/-- The metadata of a window's frame is still to come: its readout goes on. -/
def State.metaDue (s : State) (x : WinFrame) : Bool :=
  s.sht.reading && (match s.sht.cur with | some f => x.number == f.number | none => false)

/-- The frame in progress of a demoted ring reserves its remaining bytes, or has no room for them (R560). -/
def State.demoteFrames (s : State) (n : Nat) : State :=
  s.wins.foldl
    (fun s e =>
      let x := e.2
      match s.window? e.1 with
      | none => s
      | some w =>
        if w.ring = n ∧ x.sends ∧ x.reserved = 0 ∧ (!x.closed ∨ s.metaDue x) then
          let rest := if x.closed then 276 else (w.outH - x.next) * (w.rowBytes + 20) + 2 * 276
          let r := s.ring n
          if rest ≤ s.spoolFree n then
            (s.setRing n { r with reserved := r.reserved + rest }).setWin e.1 { x with reserved := rest }
          else s.setWin e.1 { x with tight := true }
        else s) s

/-- Ring `n` is demoted (R560, R561). -/
def State.demote (s : State) (n : Nat) : State :=
  let s1 := (s.put (RING_CLASS_demoted n) 1).put (RING_CLASS_in_force n) 0
  let s2 := s1.setRing n { s1.ring n with restore := false }
  let s3 := s2.setLink { s2.link with buckets := Sparse.erase s2.link.buckets n }
  ((((s3.hwSet RING_IRQ_STAT_demoted).report 0x5C 15 [n]).demoteFrames n).demoteReplays n).refill n

/-- The capacity is recomputed and the guaranteed rings that no longer fit are demoted (R559). -/
def State.recompute (s : State) : State :=
  let cap := s.linkCapacity
  let rs := (List.range 256).filter fun n => decide (2 ≤ n) && (s.on (RING_CLASS_in_force n) || (s.ring n).restore)
  let p := (s.ranked rs).foldl
    (fun (a : Nat × State) n =>
      let sh := a.2.get (RING_CLASS_shares n)
      if a.1 + sh ≤ cap then (a.1 + sh, a.2) else (a.1, a.2.demote n)) (1, s)
  (p.2.put LNK_CAPACITY_now (min 255 cap)).showCapacity

/-- A ring has frames: it serves windows or replays (R562, R480). -/
def State.hasFrames (s : State) (n : Nat) : Bool :=
  s.get (RING_DESC1_role n) == 0 || s.get (RING_DESC1_role n) == 2

/-- RESTORE: demoted rings that fit the capacity return to guaranteed service, those with frames at their next frame's
first row (R562). -/
def State.restoreRings (s : State) : State :=
  let cap := s.linkCapacity
  let kept := (List.range 256).filter fun n => decide (2 ≤ n) && (s.on (RING_CLASS_in_force n) || (s.ring n).restore)
  let used := (kept.map fun n => s.get (RING_CLASS_shares n)).sum + 1
  let dem := (List.range 256).filter fun n => s.on (RING_CLASS_demoted n) && !(s.ring n).restore
  ((s.ranked dem).foldl
    (fun (a : Nat × State) n =>
      let sh := a.2.get (RING_CLASS_shares n)
      if a.1 + sh ≤ cap then
        (a.1 + sh, if a.2.hasFrames n then a.2.setRing n { a.2.ring n with restore := true } else a.2.restoreRing n)
      else a) (used, s)).2

/-- RESTORE: LNK_LANE_CTRL.restore written 1. -/
def execRestore (s : State) : Host.Outcome State Fault Refusal := .next s.restoreRings

/-! ### The gates of R506 -/

/-- Window `i` of a video ring has still to hand over, or to decide on, frame `n` or a part of an earlier one: a frame that
it sends is not closed, or its first row of frame `n` is still to come in the readout in progress. -/
def State.windowOwes (s : State) (i : Nat) (w : Win) (n : Nat) : Bool :=
  let x := s.winFrame? i
  let opened := match x with | some x => x.sends && !x.closed && decide (x.number ≤ n) | none => false
  let decided := match x with | some x => decide (n ≤ x.number) | none => false
  let current := match s.sht.cur with | some f => decide (f.number ≤ n) | none => false
  opened || (s.sht.reading && current && s.samples i w n && !decided)

/-- The reference video ring of a detection packet has handed over the frame end of frame `n`, or decided not to send
frame `n`. -/
def State.frameHanded (s : State) (ring n : Nat) : Bool :=
  !((s.ring ring).spool.any fun p => decide (1 ≤ p.type ∧ p.type ≤ 3) && decide (p.number ≤ n)) &&
    !(s.windows.any fun i => match s.window? i with | some w => w.ring == ring && s.windowOwes i w n | none => false)

/-- A program that named `ring` as its reference video ring, in force still or not, owes the detection packet of frame `n`
or an earlier one: its run goes on, or the packet waits. -/
def State.owesDetection (s : State) (ring n : Nat) : Bool :=
  (s.npc.runs.any fun q => q.plan.refRing == ring && decide (q.frame ≤ n)) ||
    (s.rings.any fun e => e.2.spool.any fun k => k.type == 5 && k.refRing == ring && decide (k.number ≤ n))

/-- The gates let the head packet of its ring go (R506), by whole device frame numbers, so that they hold across the wrap of
the header's 32 bits. -/
def State.gateOpen (s : State) (p : Packet) : Bool :=
  if p.type = 5 then s.frameHanded p.refRing p.number
  else if p.type = 1 ∧ 2 ≤ p.number then !s.owesDetection p.ring (p.number - 2)
  else true

/-! ### Roundabout (R523) -/

/-- The head packet of ring `n`, if the link may take it now: room in the replay buffer, R491 and the gates. -/
def State.offer? (s : State) (n : Nat) : Option Packet :=
  match (s.ring n).spool with
  | [] => none
  | p :: _ =>
    if s.link.fill + p.size ≤ 131072 ∧ s.get (RING_SEQ_unacked n) < 32767 ∧ s.gateOpen p then some p else none

/-- Ring `n` has an offerable packet. -/
def State.offers (s : State) (n : Nat) : Bool := (s.offer? n).isSome

/-- The ring that Roundabout serves next, none for an IDLE unit (R523). A guaranteed ring whose bucket is below 0 is among the
other rings of its item 3 (DESIGN CHOICE, notes/assumptions/80.md). -/
def State.roundabout (s : State) : Option Nat :=
  let zero := 0 ≤ s.bucket 0
  let low := [0, 1].filter s.offers
  let rs := ((s.rings.map (·.1)).filter fun n => decide (2 ≤ n)).filter s.offers
  let guaranteed := rs.filter fun n => s.on (RING_CLASS_in_force n) && decide (0 ≤ s.bucket n)
  match (if zero then low.head? else none), turn s.link.lastGuaranteed guaranteed, low.head? with
  | some n, _, _ => some n
  | none, some n, _ => some n
  | none, none, some n => some n
  | none, none, none =>
    let top := rs.foldl (fun a n => max a (s.get (RING_DESC0_priority n))) 0
    turn (Sparse.get 0 s.link.turns top) (rs.filter fun n => s.get (RING_DESC0_priority n) == top)

/-- ECHO_REPLY takes t_tx as it enters the striper (R548): the first bit of its header leaves the TX ball `ahead` units of
2^-24 ns from now. -/
def State.stampEcho (s : State) (p : Packet) (ahead : Nat) : Packet :=
  if p.type = 9 ∧ leAt p.payload 0 4 = 4 then
    { p with payload := (p.payload.take 16) ++ leBytes 8 ((s.time.base + ahead) % 2 ^ 72 / 2 ^ 8) }
  else p

/-- The link takes the head of ring `n`: an LSN, a place in the replay buffer, the ring's bucket (R487, R521, R525). -/
def State.takeHead (s : State) (n ahead : Nat) : State :=
  match (s.ring n).spool with
  | [] => s
  | p0 :: rest =>
    let p := s.stampEcho p0 ahead
    let r := s.ring n
    let lsn := s.get LNK_LSN_next
    let kept := 64 * (s.programs.filter fun q => (planOf (s.body 7 q)).ring == n).length
    let back := if p.type = 5 ∧ bit p.pflags 3 then min 36 (kept - r.reserved) else 0
    let key := if n < 2 then 0 else n
    let charged := n < 2 || s.on (RING_CLASS_in_force n)
    let l := s.link
    let s1 := (s.setRing n { r with spool := rest, reserved := r.reserved + back }).setLink { l with
      held := l.held ++ [(lsn, p)]
      stream := l.stream ++ [.packet lsn p]
      lastGuaranteed := if 2 ≤ n ∧ charged then n else l.lastGuaranteed
      turns := if n < 2 then l.turns else Sparse.insert l.turns (s.get (RING_DESC0_priority n)) n }
    let s2 := ((s1.put LNK_LSN_next (wrapAdd 16 lsn 1)).put (RING_SEQ_unacked n) (s.get (RING_SEQ_unacked n) + 1)).count 112
    let s3 := if charged then s2.charge key p.size else s2
    let s4 := if n = 1 then (s3.refill n).logFlush else s3.refill n
    (s4.removeDue n).showLink

/-- A unit of the replay is sent again with its LSN and its bytes (R528). -/
def State.resendUnit (s : State) (from_ : Nat) : State :=
  let l := s.link
  let later := l.held.dropWhile fun h => decide (32768 ≤ (h.1 + 65536 - from_) % 65536)
  match later with
  | [] => s.setLink { l with resend := none }
  | h :: t => s.setLink { l with
      stream := l.stream ++ [.packet h.1 h.2]
      resend := match t with | [] => none | k :: _ => some k.1 }

/-- An IDLE unit. -/
def State.sendIdle (s : State) : State := s.setLink { s.link with stream := s.link.stream ++ [.idle] }

/-- The packet that stands at the head of ring 0 is the one with sequence number `q`. -/
def State.headIs (s : State) (q : Nat) : Bool :=
  match (s.ring 0).spool with | p :: _ => p.seq == q | [] => false

/-- Packet `q` of ring 0 has left its spool. -/
def State.sent0 (s : State) (q : Nat) : Bool := !((s.ring 0).spool.any fun p => p.seq == q)

/-- A link notice ahead of what waits on ring 0: packets that wait there move up by one number, and so does what the link
remembers of them. -/
def State.noticeFront (s : State) (ws : List Nat) : State :=
  let up (q : Nat) : Nat := if s.sent0 q then q else wrapAdd 16 q 1
  let s1 := s.setLink { s.link with
    step := s.link.step.map fun t => { t with seq := up t.seq }
    low := s.link.low.map fun l => { l with seq := up l.seq }
    reneg := s.link.reneg.map up }
  (s1.withPorts { s1.ports with resetAsked := s1.ports.resetAsked.map up }).buildFront 0 9 (wordBytes ws)

/-- LANE_CHANGE, for the oldest change not yet reported (R566). -/
def State.laneChange (s : State) (n : LaneNotice) : State :=
  (s.setLink { s.link with notices := s.link.notices.drop 1 }).noticeFront
    [0x07, n.lost + 2 ^ 8 * n.joined + 2 ^ 16 * n.map + 2 ^ 24 * n.cause, n.capacity, n.marker]

/-- Only ring 0 is offered while a packet of it closes the link to all others (R540, R543). -/
def State.ring0Only (s : State) (ahead : Nat) : State := if s.offers 0 then s.takeHead 0 ahead else s.sendIdle

/-- The unit that Roundabout chooses. -/
def State.roundUnit (s : State) (ahead : Nat) : State :=
  match s.roundabout with | some n => s.takeHead n ahead | none => s.sendIdle

/-- A new unit, or IDLE. -/
def State.newUnit (s : State) (ahead : Nat) : State :=
  match s.link.notices with
  | n :: _ => if s.link.fill + 36 ≤ 131072 then (s.laneChange n).takeHead 0 ahead else s.sendIdle
  | [] =>
    match s.link.step, s.link.low with
    | some t, _ => match t.phase with | .starting => s.ring0Only ahead | _ => s.sendIdle
    | none, some l =>
      if l.phase = 0 then s.roundUnit ahead
      else if s.sent0 l.seq then s.sendIdle else s.ring0Only ahead
    | none, none => s.roundUnit ahead

/-- What follows the packets of ring 0 that have left: a rate step drains, a software reset begins (R540, R214). -/
def State.afterUnit (s : State) : State :=
  match s.link.step with
  | some t =>
    if t.phase = .starting ∧ s.sent0 t.seq then s.setLink { s.link with step := some { t with phase := .draining } } else s
  | none => s

/-- A software reset over the back-channel waits until its response has been sent (R214). -/
def State.resetSent (s : State) : State :=
  match s.ports.resetAsked with
  | some q => if s.sent0 q then s.resetTo 3 0 else s
  | none => s

/-- UNIT_HANDED_TO_STRIPER: the previous unit has been handed over, and the next one is chosen (R519, R523, R528), whose first
bit leaves `ahead` units of 2^-24 ns from now. From the declaration of a loss to the restripe marker only IDLE units follow
(R553). The interval's last aggregate byte belongs to the unit that crosses it; nothing more is chosen before the marker. -/
def execUnitHandedToStriper (s0 : State) (ahead : Nat := 0) : Host.Outcome State Fault Refusal :=
  .next (
    let s := s0.resetSent
    let st := s.linkState
    if st < 1 ∨ 4 < st ∨ !s.clk.b.locked ∨ s.link.stream.isEmpty ∨ s.intervalBytes ≤ s.link.pos then s
    else if st ≠ 3 ∨ s.link.quiet ≠ 0 ∨ s.link.sched.isSome ∨ s.link.losses ≠ [] then s.sendIdle
    else match s.link.resend with
      | some l =>
        let t := s.resendUnit l
        if t.link.stream = s.link.stream then (t.newUnit ahead).afterUnit else t
      | none => (s.newUnit ahead).afterUnit)

/-! ### State changes -/

/-- The link leaves its running state: probes, steps and requests end, and nothing is scheduled. -/
def State.stopLink (s : State) : State :=
  s.setLink { s.link with
    sched := none, resend := none, lastReplay := none, consec := 0, replays := [], lead := [], stream := [], restripe := false
    losses := [], probes := [], notices := [], step := none, noSteps := false, bringing := false, low := none
    waking := false, quiet := 0, reneg := none, ackTaken := false }

/-- LNK_IRQ_STAT.down is raised where the link was up. -/
def State.linkDown (s : State) : State := if 3 ≤ s.linkState then s.hwSet LNK_IRQ_STAT_down else s

/-- The link returns to DETECT; the replay buffer keeps its content (R536, R539, R555). -/
def State.toDetect (s : State) : State :=
  let s1 := s.linkDown.stopLink
  ((((((s1.put LNK_STATUS_state 1).put LNK_STATUS_version 0).put LNK_STATUS_rate 0).put LNK_STATUS_low 0).put
    LNK_STATUS_lanes (s.get LNK_CTRL_lane_en)).put LNK_LANE_STATUS_lost 0).showLink

/-- The link enters DISABLED: every lane is in electrical idle (R536). -/
def State.toDisabled (s : State) : State :=
  let s1 := s.linkDown.stopLink
  ((((((s1.put LNK_STATUS_state 0).put LNK_STATUS_version 0).put LNK_STATUS_rate 0).put LNK_STATUS_low 0).put
    LNK_STATUS_lanes 0).put LNK_LANE_STATUS_lost 0).showLink |> fun t => t.setLink { t.link with sentMap := none }

/-- DISABLED is left while en is 1 and SYNB is locked (R536). -/
def State.tryDetect (s : State) : State :=
  if s.linkState = 0 ∧ s.on LNK_CTRL_en ∧ s.clk.b.locked then s.toDetect else s

/-- LNK_CTRL.en takes a value. -/
def State.linkEnable (s : State) (en : Bool) : State :=
  let s1 := s.put LNK_CTRL_en (b2n en)
  (if en then s1.tryDetect else if s1.linkState = 0 then s1 else s1.toDisabled).refault

/-- LINK_ENABLE_WRITE: LNK_CTRL.en moves the link between DISABLED and DETECT (R536). -/
def execLinkEnableWrite (en : Bool) (s : State) : Host.Outcome State Fault Refusal := .next (s.linkEnable en)

/-- The back-channel receiver loses its alignment and starts afresh (R531). -/
def State.bcLost (s : State) : State := (s.put LNK_STATUS_bc_aligned 0).setLink { s.link with symbols := [] }

/-- SYNB stops: the link is in DETECT with its lanes idle until the relock (R539, R555; DEDUCED, notes/assumptions/81.md); LOW
falls back to DISABLED (17, At the edges). -/
def State.lanesStop (s : State) : State :=
  let s1 := s.bcLost
  if s.linkState = 5 then s1.toDisabled
  else if 1 ≤ s.linkState then (s1.toDetect).linkCause 0x5E 0
  else s1

/-- The lanes stop sending for L1 or L2, probed lanes too (R536, R543, R546). -/
def State.enterLow (s : State) (low : Nat) : State :=
  let s1 := s.setLink { s.link with low := none, lead := [], stream := [], probes := [] }
  let s2 := ((s1.put LNK_STATUS_state 5).put LNK_STATUS_low low).hwSet LNK_IRQ_STAT_pm_change
  (if low = 2 then
    (s2.bcLost.withClk { s2.clk with b := { s2.clk.b with running := false, locked := false } }).put
      CLK_STATUS_synb_lock 0
  else s2).showLink

/-- The lanes resume; packets follow the second marker (R544, R546). -/
def State.leaveLow (s : State) : State :=
  let s1 := s.setLink { s.link with quiet := 2, waking := false }
  ((((s1.put LNK_STATUS_state 3).put LNK_STATUS_low 0).hwSet LNK_IRQ_STAT_pm_change)).showLink

/-- A wake of the link: from L1 at once, from L2 once SYNB has locked again (R544, R545). -/
def State.wakeLink (s : State) : State :=
  if s.linkState ≠ 5 then s
  else if s.get LNK_STATUS_low = 2 then
    ((s.setLink { s.link with waking := true }).withClk { s.clk with b := { s.clk.b with running := true, trying := true } })
  else s.leaveLow

/-- SYNB has locked: DISABLED and a wake from L2 go on (R536, R545). -/
def State.lanesStart (s : State) : State :=
  if s.link.waking ∧ s.linkState = 5 then s.leaveLow else s.tryDetect

/-! ### ACK and NAK (R526, R527, R556) -/

/-- The oldest LSN held, or the next one. -/
def State.oldestLsn (s : State) : Nat := match s.link.held with | [] => s.get LNK_LSN_next | h :: _ => h.1

/-- A replay from `l` is scheduled, unless one from `l` or earlier already is (R527, R553). -/
def State.schedule (s : State) (l : Nat) : State :=
  if s.link.held.isEmpty then s
  else
    let o := s.oldestLsn
    let rank (x : Nat) := (x + 65536 - o) % 65536
    let keep := match s.link.sched with | some x => decide (rank x ≤ rank l) | none => false
    if keep then s else s.setLink { s.link with sched := some l }

/-- Packets that leave the replay buffer are acknowledged on their rings (R491, R525). -/
def State.unackOne (s : State) (p : Packet) : State := s.put (RING_SEQ_unacked p.ring) (s.get (RING_SEQ_unacked p.ring) - 1)

/-- What an empty or shorter replay buffer lets go on: L1 and L2, RENEGOTIATE (R539, R543). -/
def State.afterAck (s : State) : State :=
  let gone (q : Nat) : Bool := s.sent0 q && !(s.link.held.any fun h => h.2.ring == 0 && h.2.seq == q)
  match s.link.reneg with
  | some q => if gone q then s.toDetect else s
  | none =>
    match s.link.low with
    | none => s
    | some l =>
      if l.phase = 0 ∧ s.link.held.isEmpty ∧ s.linkState = 3 ∧ s.link.step = none then
        let s1 := s.manage 0x06 [l.low]
        s1.setLink { s1.link with low := some { l with phase := 1, seq := s1.lastSeq } }
      else if l.phase = 1 ∧ gone l.seq then s.setLink { s.link with low := some { l with phase := 2 } }
      else s

/-- A replay from `lsn`, or from an earlier LSN held, is scheduled and has not begun. -/
def State.schedCovers (s : State) (lsn : Nat) : Bool :=
  match s.link.sched with
  | some x => decide ((x + 65536 - s.oldestLsn) % 65536 ≤ (lsn + 65536 - s.oldestLsn) % 65536)
  | none => false

/-- An ACK or a NAK for `lsn`: held units up to, or before, it are released (R526); a valid NAK schedules a replay, and
changes nothing while one from there or earlier waits (R527, R553). A scheduled replay never starts before the oldest unit
held. -/
def State.covers (s : State) (lsn : Nat) (nak : Bool) : State :=
  let o := s.oldestLsn
  let span := (s.get LNK_LSN_next + 65536 - o) % 65536
  let d := (lsn + 1 + 65536 - o) % 65536
  if span < d ∨ (nak ∧ d = 0) then s.linkCause 0x56 lsn
  else if nak ∧ s.schedCovers lsn then s
  else
    let n := if nak then d - 1 else d
    let out := s.link.held.take n
    let kept := s.link.held.drop n
    let s1 := (out.map (·.2)).foldl State.unackOne s
    let early := 1 ≤ s.linkState ∧ s.linkState ≤ 2
    let l := s1.link
    let resend := match l.resend, kept with
      | some x, h :: _ => if 32768 ≤ (x + 65536 - h.1) % 65536 then some h.1 else some x
      | _, _ => none
    let s2 := s1.setLink { l with
      held := kept, resend := resend, covered := l.covered || n != 0
      lastAcked := if n = 0 then l.lastAcked else (o + n + 65535) % 65536
      ackTaken := l.ackTaken || (!nak && decide early)
      sched := match l.sched, kept with
        | some x, h :: _ => if (x + 65536 - o) % 65536 < n then some h.1 else some x
        | _, _ => none }
    let s3 := if nak ∧ 3 ≤ s.linkState then s2.schedule lsn else s2
    s3.showLink.afterAck

/-- An interjection with its LSN and CRC bytes: `act` follows where the CRC is right, and it is ignored and counted where it
is not (R534). Nothing is received while the back-channel is not aligned. -/
def State.interjection (s : State) (lsn crc : Nat) (act : State → State) : State :=
  if !s.on LNK_STATUS_bc_aligned then s
  else if crc = interjectionCrc lsn then act s
  else s.bump LNK_COUNTS_bc_discarded

/-- ACK: the interjection K28.4 (R526). -/
def execAck (lsn : Nat) (s : State) (crc : Nat := interjectionCrc lsn) : Host.Outcome State Fault Refusal :=
  .next (s.interjection lsn crc fun s => (s.count 111).covers (lsn % 65536) false)

/-- NAK: the interjection K28.6 (R527). -/
def execNak (lsn : Nat) (s : State) (crc : Nat := interjectionCrc lsn) : Host.Outcome State Fault Refusal :=
  .next (s.interjection lsn crc fun s => (s.count 110).covers (lsn % 65536) true)

/-- REPLAY_TIMEOUT: no ACK or NAK has covered a unit for the timeout (R527). -/
def execReplayTimeout (s : State) : Host.Outcome State Fault Refusal :=
  .next (if s.linkState = 3 then s.schedule s.oldestLsn else s)

/-- INTERJECTION_DISCARDED: a bad CRC-8 or a code error (R534); one without either is an ACK or a NAK. -/
def execInterjectionDiscarded (s : State) (lsn : Nat := 0) (crc : Nat := 0) (codeError : Bool := true) : Host.Outcome State Fault Refusal :=
  .next (if codeError && s.on LNK_STATUS_bc_aligned then s.bump LNK_COUNTS_bc_discarded
  else s.interjection lsn crc id)

/-! ### Rate steps (R540 to R542) -/

/-- A step to rate code `r` begins with STEP_START. -/
def State.beginStep (s : State) (r : Nat) (down : Bool) : State :=
  let s1 := s.manage 0x02 [r + 4 * b2n down]
  let s2 := s1.setLink { s1.link with
    step := some { rate := r, old := s.get LNK_STATUS_rate, down := down, phase := .starting, seq := s1.lastSeq }
    noSteps := s1.link.noSteps || down }
  if down then (s2.linkCause 0x58 (s.get LNK_LSN_next)).hwSet LNK_IRQ_STAT_downshift else s2

/-- The steps of a bring-up are over: the guarantees are ranked against the rate reached (R559; DEDUCED,
notes/assumptions/22.md). -/
def State.endBringUp (s : State) : State :=
  if s.link.bringing then (s.setLink { s.link with bringing := false }).recompute else s

/-- In ACTIVE below the target, the next step up begins; else bring-up is over. -/
def State.nextStep (s : State) : State :=
  if s.get LNK_STATUS_version = 2 ∧ !s.link.noSteps ∧ s.get LNK_STATUS_rate < s.link.target then
    s.beginStep (s.get LNK_STATUS_rate + 1) false
  else s.endBringUp

/-- A step has passed: ACTIVE at this marker. -/
def State.stepDone (s : State) : State :=
  let s1 := (s.setLink { s.link with step := none }).put LNK_STATUS_state 3
  ((s1.manage 0x03 [s.get LNK_STATUS_rate + 4]).hwSet LNK_IRQ_STAT_step_done).nextStep

/-- A failed step is over: ACTIVE at the previous rate; a downshift tries the next lower rate, and at rate code 0 the
link returns to DETECT (R540, R542). -/
def State.stepFailed (s : State) (t : RateStep) : State :=
  let s1 := (s.setLink { s.link with step := none, noSteps := true }).put LNK_STATUS_state 3
  let s2 := ((s1.manage 0x03 [s.get LNK_STATUS_rate + 2 ^ 8 * 0x54]).hwSet LNK_IRQ_STAT_step_failed).linkCause 0x54 0
  let s3 := s2.endBringUp
  if t.down then (if t.rate = 0 then s3.toDetect else s3.beginStep (t.rate - 1) true) else s3

/-- The phase of the step in progress. -/
def State.setPhase (s : State) (t : RateStep) (p : StepPhase) : State :=
  s.setLink { s.link with step := some { t with phase := p } }

/-- STEP_DRAINED: the replay buffer is empty after STEP_START (R540). -/
def execStepDrained (s : State) : Host.Outcome State Fault Refusal :=
  .next (match s.link.step with
  | some t => if t.phase = .draining ∧ s.link.held.isEmpty then s.setPhase t .drained else s
  | none => s)

/-- STEP_DRAIN_TIMEOUT: the buffer has not emptied within 1 ms; the step fails (R540). -/
def execStepDrainTimeout (s : State) : Host.Outcome State Fault Refusal :=
  .next (match s.link.step with
  | some t => if t.phase = .draining then s.setPhase t .failed else s
  | none => s)

/-- STEP_RESULT_TIMEOUT: no STEP_RESULT within 64 intervals plus 1 ms (R540). -/
def execStepResultTimeout (s : State) : Host.Outcome State Fault Refusal :=
  .next (match s.link.step with
  | some t => if t.phase = .checking then s.setPhase t .failed else s
  | none => s)

/-! ### Back-channel messages (R531 to R548) -/

/-- A discarded message: counted, logged and answered with BC_ERR (R533). -/
def State.discardMessage (s : State) (cause type : Nat) : State :=
  let n := wrapAdd 16 s.link.discarded 1
  let s1 := (((s.setLink { s.link with discarded := n }).bump LNK_COUNTS_bc_discarded).hwSet LNK_IRQ_STAT_bc_error).count 109
  (s1.linkCause cause type).manage 0x05 [cause + 2 ^ 8 * type + 2 ^ 16 * n]

/-- The types of the message table with their body lengths. -/
def messageLengths : List (Nat × Nat × Nat) :=
  [(0x01, 8, 264), (0x02, 8, 8), (0x03, 4, 4), (0x04, 4, 4), (0x05, 4, 4), (0x10, 8, 8), (0x11, 8, 8), (0x12, 4, 4),
   (0x13, 4, 4)]

/-- Type `t` takes a body of `n` bytes. -/
def messageFits (t n : Nat) : Bool := messageLengths.any fun m => m.1 == t && decide (m.2.1 ≤ n) && decide (n ≤ m.2.2)

/-- BC_MESSAGE_DISCARDED: type, length, body and CRC as received; a code error or a CRC mismatch is cause 0x50, an unknown
type or a bad length 0x51 (R533). -/
def execBcMessageDiscarded (message : List Byte) (codeError : Bool) (s : State) : Host.Outcome State Fault Refusal :=
  .next (
    let t := leAt message 0 1
    let known := decide (message ≠ []) && messageLengths.any fun m => m.1 == t
    let n := leAt message 1 2
    let head := message.take (3 + n)
    if !s.on LNK_STATUS_bc_aligned then s
    else if codeError || message.length != n + 5 || leAt message (3 + n) 2 != crc16 head then
      s.discardMessage 0x50 (if known then t else 0xFF)
    else if !messageFits t n then s.discardMessage 0x51 (if known then t else 0xFF)
    else s)

/-- The receiver takes one symbol (R531): 32 without an error, at least 4 of them K28.5, align it; 4 errors within 64 symbols
lose the alignment. Either starts a new count. -/
def State.bcSymbol (s : State) (x : BcSymbol) : State :=
  let seen := (x :: s.link.symbols).take 64
  let last := seen.take 32
  if s.on LNK_STATUS_bc_aligned then
    if 4 ≤ (seen.filter BcSymbol.error).length then s.bcLost else s.setLink { s.link with symbols := seen }
  else if last.length = 32 ∧ (last.all fun y => !y.error) ∧ 4 ≤ (last.filter BcSymbol.comma).length then
    (s.put LNK_STATUS_bc_aligned 1).setLink { s.link with symbols := [] }
  else s.setLink { s.link with symbols := seen }

/-- BC_ALIGNMENT: the receiver takes symbols, oldest first, and declares alignment or its loss (R531); L2 and a stopped SYNB
have no receiver. -/
def execBcAlignment (symbols : List BcSymbol) (s : State) : Host.Outcome State Fault Refusal :=
  .next (if s.clk.b.locked then symbols.foldl State.bcSymbol s else s)

/-- BC_SILENCE_TIMEOUT: no valid symbol for 100 µs in ACTIVE (R539). -/
def execBcSilenceTimeout (s : State) : Host.Outcome State Fault Refusal :=
  .next (if s.linkState = 3 then (s.toDetect).linkCause 0x59 (s.get LNK_LSN_next) else s)

/-- The words of CAPS_REPLY after the code (R535). -/
def State.capsReply (s : State) (version lanes target : Nat) (pinned : Bool) : List Nat :=
  [3 + 2 ^ 8 * s.get LNK_CTRL_lane_en + 2 ^ 16 * s.get LNK_CTRL_max_rate + 2 ^ 20 * version + 2 ^ 24 * lanes,
   target + 4 * b2n pinned + 8 * b2n (version == 2 && s.link.peerLow == 3),
   (s.reg aSYS_ID).toNat, (s.reg aSYS_STEP).toNat, s.get CFG_ACTIVE_ID_id]

/-- A CAPS message chooses version, lane set and target rate (R537). -/
def State.capsMessage (s : State) (body : List Byte) : State :=
  if s.linkState ≠ 1 then s.linkCause 0x52 0
  else if s.safe.supervisorDead then s.linkCause 0x88 0
  else
    let host := leAt body 0 1
    let hostRate := bits (leAt body 2 1) 0 2
    let maxV := min 2 (max 1 (s.get LNK_CTRL_max_version))
    let version := if maxV = 2 ∧ bit host 1 then 2 else if bit host 0 then 1 else 0
    let lanes := land (leAt body 1 1) (s.get LNK_CTRL_lane_en)
    let pinned := s.on LNK_CTRL_pin_rate
    let maxR := s.get LNK_CTRL_max_rate
    let target := if pinned then maxR else if version ≠ 2 then 0 else min hostRate maxR
    let s1 := (s.put LNK_PEER_caps (leAt body 0 4)).setLink { s.link with peerLow := bits (leAt body 2 1) 2 2 }
    if version = 0 ∨ lanes = 0 ∨ (pinned ∧ hostRate < maxR) then
      (s1.linkCause 0x53 0).manage 0x01 (s1.capsReply 0 0 0 pinned)
    else
      let s2 := s1.setLink { s1.link with target := target, pinned := pinned }
      ((s2.put LNK_STATUS_version version).put LNK_LANE_STATUS_chosen lanes).put LNK_STATUS_state 2

/-- CAPS (R533, R537). -/
def execCaps (body : List Byte) (s : State) : Host.Outcome State Fault Refusal :=
  .next (if !s.on LNK_STATUS_bc_aligned then s
  else if body.length ≠ 8 ∨ bits (leAt body 2 1) 4 4 ≠ 0 ∨ leAt body 3 5 ≠ 0 then s.discardMessage 0x51 2
  else s.capsMessage body)

/-- STEP_RESULT for the rate being stepped (R540); for any other it is discarded. -/
def execStepResult (body : List Byte) (s : State) : Host.Outcome State Fault Refusal :=
  .next (if !s.on LNK_STATUS_bc_aligned then s
  else
    match s.link.step with
    | some t =>
      if body.length = 4 ∧ leAt body 0 1 < 2 ∧ leAt body 2 2 = 0 ∧ t.phase = .checking ∧ leAt body 1 1 = t.rate then
        s.setPhase t (if leAt body 0 1 = 1 then .passed else .failed)
      else s.discardMessage 0x51 3
    | none => s.discardMessage 0x51 3)

/-- L1 or L2 is refused (R543); a request that runs goes on. -/
def State.refuseLow (s : State) (low : Nat) : State := (s.manage 0x06 [low + 2 ^ 8 * 0x57]).linkCause 0x57 0

/-- A request for L1 or L2, from a PM message or from the power sequencer (R543, R632). It takes the place of one that runs,
waits for a rate step to end, and in LOW first brings the lanes back, on which PM_ACK leaves (DESIGN CHOICE,
notes/assumptions/81.md). -/
def State.requestLow (s : State) (low : Nat) (power : Bool) : State :=
  if s.get LNK_STATUS_version ≠ 2 ∨ s.power = 4 then s.refuseLow low
  else
    let s1 := if s.linkState = 5 then s.leaveLow else s
    let was := match s1.link.low with | some l => l.power | none => false
    (s1.setLink { s1.link with low := some { low := low, power := power || was } }).afterAck

/-- PM requests L0, L1 or L2 (R543, R544). -/
def execPm (body : List Byte) (s : State) : Host.Outcome State Fault Refusal :=
  .next (if !s.on LNK_STATUS_bc_aligned then s
  else if body.length ≠ 4 ∨ 2 < leAt body 0 1 ∨ leAt body 1 3 ≠ 0 then s.discardMessage 0x51 4
  else if leAt body 0 1 = 0 then (if s.linkState = 5 then s.leaveLow else s).manage 0x06 [0]
  else s.requestLow (leAt body 0 1) false)

/-- ECHO: ECHO_REPLY takes the cookie and t_rx; t_tx follows at the striper (R548). -/
def execEcho (body : List Byte) (elapsed : Nat) (s : State) : Host.Outcome State Fault Refusal :=
  .next (if !s.on LNK_STATUS_bc_aligned then s
  else if body.length ≠ 4 then s.discardMessage 0x51 0x13
  else
    let s1 := s.rxStamp (elapsed * rxUnit)
    let t := s1.get64 aTIME_RX_LO aTIME_RX_HI
    s1.manage 0x04 [leAt body 0 4, t % 2 ^ 32, t / 2 ^ 32, 0, 0])

/-! ### RENEGOTIATE (R539) -/

/-- In ACTIVE, RENEGOTIATE is sent, and DETECT is re-entered after its ACK. -/
def State.renegotiate (s : State) : State :=
  if s.linkState ≠ 3 ∨ s.link.reneg.isSome then s
  else
    let s1 := s.manage 0x09 [s.get LNK_CTRL_lane_en + 2 ^ 8 * s.get LNK_CTRL_max_rate]
    s1.setLink { s1.link with reneg := some s1.lastSeq }

/-- RENEGOTIATE: LNK_CTRL.renegotiate written 1. -/
def execRenegotiate (s : State) : Host.Outcome State Fault Refusal := .next s.renegotiate

/-- A write of LNK_CTRL: a change of lane_en, max_rate or max_version in ACTIVE renegotiates (R539). -/
def State.linkCtrlWrite (s : State) (v : Word) : State :=
  let key (t : State) := (t.get LNK_CTRL_lane_en, t.get LNK_CTRL_max_rate, t.get LNK_CTRL_max_version)
  let en := bit v.toNat 0
  let was := s.on LNK_CTRL_en
  let s1 := s.plainWrite aLNK_CTRL v
  let s2 := if bit v.toNat 1 || key s1 != key s then s1.renegotiate else s1
  if was = en then s2 else s2.linkEnable en

/-! ### Lane loss and probes (R551 to R566) -/

/-- A lane of the map is declared lost (R551, R553); with no lane left the link returns to DETECT (R555). -/
def State.loseLane (s : State) (lane cause : Nat) : State :=
  if (s.linkState ≠ 3 ∧ s.linkState ≠ 4) ∨ !bit s.laneMap lane ∨ s.link.losses.any (fun x => x.1 == lane) then s
  else
    let s1 := s.setLink { s.link with losses := s.link.losses ++ [(lane, s.cycle, cause)] }
    let s2 := ((((s1.linkCause cause lane).bump LNK_LANE_COUNTS_losses).hwSet LNK_IRQ_STAT_lane_lost).pulse 83).schedule
      s.oldestLsn
    if andNot s2.laneMap (maskOf (s2.link.losses.map (·.1))) = 0 then (s2.toDetect).linkCause 0x5E 0
    else match s2.link.step with
    | some t => match t.phase with | .settling _ => s2 | _ => s2.setPhase t .failed
    | none => s2

/-- LANE_REPORT: lanes omitted are lost, and a probed lane named as held is confirmed (R551, R564). -/
def execLaneReport (body : List Byte) (s : State) : Host.Outcome State Fault Refusal :=
  .next (if !s.on LNK_STATUS_bc_aligned then s
  else if body.length ≠ 4 ∨ leAt body 1 3 ≠ 0 then s.discardMessage 0x51 5
  else
    let lanes := leAt body 0 1
    let s1 := (List.range 8).foldl (fun t n => if bit s.laneMap n && !bit lanes n then t.loseLane n 0x5A else t) s
    s1.setLink { s1.link with probes := s1.link.probes.map fun p =>
      if p.begun ∧ p.left ≠ 0 ∧ bit lanes p.lane ∧ p.confirmed = none then { p with confirmed := some s.cycle } else p })

/-- TX_DELAY_LINE_LOSS: a lane's own delay line is out of lock (R551). -/
def execTxDelayLineLoss (lane : Nat) (s : State) : Host.Outcome State Fault Refusal :=
  .next (if lane < 8 then s.loseLane lane 0x5B else s)

/-- PROBE_START: a lost lane is to be probed from the next marker (R563). -/
def execProbeStart (lane : Nat) (s : State) : Host.Outcome State Fault Refusal :=
  .next (if lane < 8 ∧ (s.linkState = 3 ∨ s.linkState = 4) ∧ bit (s.get LNK_LANE_STATUS_lost) lane ∧
      !bit (s.get LNK_LANE_CTRL_no_readmit) lane ∧ !(s.link.probes.any fun p => p.lane == lane) then
    s.setLink { s.link with probes := s.link.probes ++ [{ lane := lane }] }
  else s)

/-- PROBE_END: a probe has ended without a confirming report (R564). -/
def execProbeEnd (lane : Nat) (s : State) : Host.Outcome State Fault Refusal :=
  .next (if s.link.probes.any fun p => p.lane == lane && p.begun && p.left == 0 && p.confirmed == none then
    ((s.setLink { s.link with probes := s.link.probes.filter fun p => p.lane != lane }).linkCause 0x5D lane).showLink
  else s)

/-! ### The marker (R515, R517, R522) -/

/-- Entry to ACTIVE from CONFIG: the LSN count restarts with CAPS_REPLY, RESEND and the held units of other rings
(R538, R557). -/
def State.enterActive (s : State) : State :=
  let l := s.link
  let chosen := s.get LNK_LANE_STATUS_chosen
  let drop := l.held.filter fun h => h.2.ring == 0
  let keep := l.held.filter fun h => h.2.ring != 0
  let s1 := (drop.map (·.2)).foldl State.unackOne s
  let s2 := s1.setLink { l with held := [], sched := none, resend := none, buckets := [], bringing := true, noSteps := false }
  let s3 := ((s2.put LNK_STATUS_state 3).put LNK_STATUS_lanes chosen).put LNK_LSN_next 0
  let resend := [0x08, l.lastAcked + 2 ^ 16 * b2n l.ackTaken, keep.length, drop.length % 65536]
  let caps := 0x01 :: s.capsReply (s.get LNK_STATUS_version) chosen l.target l.pinned
  let s4 := ((s3.noticeFront resend).noticeFront caps).takeHead 0 0 |>.takeHead 0 0
  let first := s4.link.held
  let again := (List.range keep.length).zip keep |>.map fun k => (2 + k.1, k.2.2)
  let s5 := s4.setLink { s4.link with
    held := first ++ again, stream := [], resend := some 0, lastReplay := none, consec := 0, covered := false, ackTaken := false }
  let s6 := s5.put LNK_LSN_next (2 + keep.length)
  (s6.hwSet LNK_IRQ_STAT_up).nextStep

/-- Lanes declared lost leave the map (R552). -/
def State.applyLosses (s : State) : State :=
  let out := maskOf (s.link.losses.map (·.1))
  let n : LaneNotice := { lost := out, cause := (s.link.losses.getLast?.map (·.2.2)).getD 0, marker := s.link.nextMarker }
  ((s.setLink { s.link with losses := [], notices := s.link.notices ++ [n] }).put LNK_STATUS_lanes (andNot s.laneMap out)).put
    LNK_LANE_STATUS_lost (lor (s.get LNK_LANE_STATUS_lost) out)

/-- Confirmed lanes join the map (R564); a loss at the same marker is reported with them. -/
def State.applyJoins (s : State) (lanes : List Nat) : State :=
  let m := maskOf lanes
  let here := s.link.nextMarker
  let notices := if s.link.notices.any fun n => n.marker == here then
      s.link.notices.map fun n => if n.marker = here then { n with joined := m } else n
    else s.link.notices ++ [{ joined := m, marker := here }]
  let s1 := s.setLink { s.link with notices := notices, probes := s.link.probes.filter fun p => !lanes.contains p.lane }
  let s2 := (s1.put LNK_STATUS_lanes (lor s.laneMap m)).put LNK_LANE_STATUS_lost (andNot (s.get LNK_LANE_STATUS_lost) m)
  (s2.bump LNK_LANE_COUNTS_joins lanes.length).hwSet LNK_IRQ_STAT_lane_joined

/-- The notice of this marker's change takes the map and the guarantees that follow from it (R566). -/
def State.noticeWords (s : State) : State :=
  let word := s.get LNK_CAPACITY_now + 2 ^ 8 * s.get LNK_CAPACITY_used + 2 ^ 16 * s.get LNK_CAPACITY_demoted
  s.setLink { s.link with notices := s.link.notices.map fun n =>
    if n.marker = s.link.nextMarker then { n with map := s.laneMap, capacity := word } else n }

/-- What the step in progress does at a marker (R540). -/
def State.stepMarker (s : State) : State :=
  match s.link.step with
  | none => s
  | some t =>
    match t.phase with
    | .drained => ((s.setPhase t .checking).put LNK_STATUS_state 4).put LNK_STATUS_rate t.rate
    | .passed => s.stepDone
    | .failed => ((s.setPhase t (.settling 2)).put LNK_STATUS_state 4).put LNK_STATUS_rate t.old
    | .settling (k + 2) => s.setPhase t (.settling (k + 1))
    | .settling _ => s.stepFailed t
    | _ => s

/-- A probe goes on by one interval. -/
def Probe.next (p : Probe) : Probe := if p.begun then { p with left := p.left - 1 } else { p with begun := true }

/-- A scheduled replay begins at this marker, counted, and limited by R529 and R542. -/
def State.beginReplay (s : State) (l : Nat) : State :=
  let k := s.link
  let same := k.lastReplay == some l && !k.covered
  let consec := if same then k.consec + 1 else 0
  let recent := (k.replays.filter fun c => decide (s.cycle < c + 20000000)) ++ [s.cycle]
  let s1 := (((s.setLink { k with
    sched := none, resend := some l, lastReplay := some l, covered := false, consec := consec, replays := recent }).bump
      LNK_COUNTS_replays).hwSet LNK_IRQ_STAT_replay).count 108
  let lim := s.get LNK_DOWNSHIFT_limit
  if max 1 (s.get LNK_REPLAY_CFG_limit) ≤ consec then (s1.toDetect).linkCause 0x55 l
  else if s.get LNK_STATUS_version = 2 ∧ !s.on LNK_CTRL_pin_rate ∧ lim ≠ 0 ∧ lim ≤ recent.length ∧ 0 < s.get LNK_STATUS_rate ∧
      s1.link.step = none then
    (s1.setLink { s1.link with replays := [] }).beginStep (s.get LNK_STATUS_rate - 1) true
  else s1

/-- The LSN of the packet unit that follows (R521): the start of a replay that waits, the next unit of one that runs, or the
next new unit, which in DETECT is the first of the next bring-up (R557). -/
def State.nextUnitLsn (s : State) : Nat :=
  if s.linkState = 1 then 0
  else match s.link.sched, s.link.resend with
    | some x, _ => x
    | none, some x => x
    | none, none => s.get LNK_LSN_next

/-- The marker itself: counter, restripe bit, what is left of the unit that crosses it, and the anchor (R515 to R522). The
capacity shown is that of its map and rate (R559). -/
def State.placeMarker (s : State) (force : Bool) (carry : List Byte) (replay : Option Nat) : State :=
  let l := s.link
  let anchor := match replay with
    | some x => LinkUnit.rsync x
    | none => .sync s.nextUnitLsn
  let other := match l.sentMap with | some m => decide (m ≠ s.laneMap) | none => false
  let s1 := s.setLink { l with
    lead := carry, stream := [anchor], restripe := force || other, nextMarker := wrapAdd 16 l.nextMarker 1
    quiet := l.quiet - 1, probes := l.probes.map Probe.next, sentMap := some s.laneMap }
  ((s1.put LNK_MARKER_counter l.nextMarker).put LNK_CAPACITY_now (min 255 s.linkCapacity)).showLink

/-- The replay that begins at this marker: after a loss it waits for the restripe marker (R528, R553). -/
def State.replayDue (s : State) : Option Nat :=
  if s.linkState = 3 ∧ s.link.losses.isEmpty ∧ s.link.quiet = 0 then s.link.sched else none

/-- MARKER: a new interval begins on every lane (R515, R517). -/
def State.linkMarker (s : State) : State :=
  let st := s.linkState
  let oldMap := s.laneMap
  let oldRate := s.get LNK_STATUS_rate
  let carry := (s.link.lead ++ s.link.stream.flatMap LinkUnit.bytes).drop s.intervalBytes
  let due := match s.link.losses with | [] => false | x :: _ => decide (x.2.1 + 200 ≤ s.cycle)
  let joins := (s.link.probes.filter fun p =>
    match p.confirmed with | some c => decide (c + 200 ≤ s.cycle) | none => false).map Probe.lane
  let s1 :=
    if st = 1 then s.put LNK_STATUS_lanes (s.get LNK_CTRL_lane_en)
    else if st = 2 then s.enterActive
    else
      let a := if due then s.applyLosses else s
      let b := if joins.isEmpty || a.linkState = 1 then a else a.applyJoins joins
      if b.link.losses.isEmpty then b.stepMarker else b
  if s1.linkState = 1 ∧ st ≠ 1 then s1
  else
    let changed := s1.laneMap ≠ oldMap ∨ s1.get LNK_STATUS_rate ≠ oldRate
    let s2 := if 3 ≤ st ∧ changed then
        (if s1.link.bringing ∧ s1.laneMap = oldMap then s1 else (s1.setLink { s1.link with bringing := false }).recompute)
      else s1
    let r := s2.replayDue
    let s3 := match r with | some l => s2.noticeWords.beginReplay l | none => s2.noticeWords
    if s3.linkState = 1 ∧ st ≠ 1 then s3
    else
      let s4 := s3.placeMarker (st == 2) carry r
      match s4.link.low with
      | some q => if q.phase = 2 ∧ s4.link.step = none then s4.enterLow q.low else s4
      | none => s4

/-- MARKER. -/
def execMarker (s0 : State) : Host.Outcome State Fault Refusal :=
  .next (
    let s := s0.resetSent
    if 1 ≤ s.linkState ∧ s.linkState ≤ 4 ∧ s.clk.b.locked ∧ s.laneMap ≠ 0 then s.linkMarker
    else if s.linkState = 1 ∧ s.clk.b.locked then s.linkMarker
    else s)

/-! ### L1 -/

/-- PM_DRAIN_TIMEOUT: the replay buffer has not emptied within 1 ms (R543, R632). -/
def State.lowTimeout (s : State) : State :=
  match s.link.low with
  | some l => if l.phase = 0 then (s.setLink { s.link with low := none }).refuseLow l.low else s
  | none => s

/-- WAKE_ON_DATA: a packet that waits on ring 0 or 1 makes the device leave L1 (R546). -/
def execWakeOnData (s : State) : Host.Outcome State Fault Refusal :=
  .next (if s.linkState = 5 ∧ s.get LNK_STATUS_low = 1 ∧ s.on LNK_CTRL_wake_on_data ∧
      (!(s.ring 0).spool.isEmpty || !(s.ring 1).spool.isEmpty) then s.leaveLow
  else s)

end Sys2Proof.Machine
end

