-- ==== Sys2Proof/Machine/Clocks.lean ====
section
/-! DEFINITION. Clock synthesis: plans, lock and loss of lock, commits at the beat, relocks, the reference monitor, and
the triplicated settings (R76 to R101, R649, R701). -/

namespace Sys2Proof.Machine

/-! ### Synthesizers and their registers -/

/-- A synthesizer's part. -/
def State.synth (s : State) : Syn → Synth
  | .a => s.clk.a
  | .b => s.clk.b

/-- A synthesizer's part replaced. -/
def State.setSynth (s : State) (y : Syn) (x : Synth) : State :=
  match y with
  | .a => s.withClk { s.clk with a := x }
  | .b => s.withClk { s.clk with b := x }

/-- CLK_SYNx_CTRL and its fields. -/
def synCtrl (y : Syn) (lo w : Nat) : Fld :=
  match y with
  | .a => ⟨aCLK_SYNA_CTRL, lo, w⟩
  | .b => ⟨aCLK_SYNB_CTRL, lo, w⟩

/-- CLK_SYNx_CTRL.commit, .auto_relock, .commit_result and .lock_losses. -/
def synCommit (y : Syn) : Fld := synCtrl y 0 1
def synAuto (y : Syn) : Fld := synCtrl y 4 1
def synResult (y : Syn) : Fld := synCtrl y 8 4
def synLosses (y : Syn) : Fld := synCtrl y 16 8

/-- CLK_STATUS.syna_lock, .synb_lock. -/
def synLockBit (y : Syn) : Fld := match y with | .a => CLK_STATUS_syna_lock | .b => CLK_STATUS_synb_lock

/-- A bit of CLK_IRQ_STAT: `lo` for SYNA, the next one for SYNB. -/
def synIrq (y : Syn) (lo : Nat) : Fld := ⟨aCLK_IRQ_STAT, match y with | .a => lo | .b => lo + 1, 1⟩

/-- Number of outputs. -/
def synOutputs : Syn → Nat
  | .a => 8
  | .b => 2

/-- CLK_SYNx_OUTn_CFG and CLK_SYNx_OUTn_DLY. -/
def synCfg (y : Syn) (n : Nat) : Nat := match y with | .a => aCLK_SYNA_OUT_CFG n | .b => aCLK_SYNB_OUT_CFG n
def synDly (y : Syn) (n : Nat) : Nat := match y with | .a => aCLK_SYNA_OUT_DLY n | .b => aCLK_SYNB_OUT_DLY n

/-- The setting registers of a synthesizer. -/
def synSettings (y : Syn) : List Nat := (List.range (synOutputs y)).flatMap fun n => [synCfg y n, synDly y n]

/-- The divider and the enable in a CFG word. -/
def cfgDiv (w : Word) : Nat := bits w.toNat 0 10
def cfgOn (w : Word) : Bool := bit w.toNat 16

/-- f_VCO in kHz times ref_div (R78). -/
def Synth.vcoDiv (x : Synth) : Nat := x.refKhz * x.fbN

/-- An output's divider keeps its frequency at or below `khz` (R79): f = 2 f_VCO / d. -/
def Synth.atMost (x : Synth) (d khz : Nat) : Bool := decide (2 * x.vcoDiv ≤ khz * d * x.refDiv)

/-- The beat period in VCO half-cycles (R86). -/
def beatOf (ds : List Nat) : Nat := ds.foldl Nat.lcm 1

/-- The highest frequency of outputs 2, 5 and 7 of SYNA, in kHz (R80). -/
def outLimit (n : Nat) : Option Nat := if n = 2 then some 600000 else if n = 5 then some 200000 else if n = 7 then some 100000 else none

/-- R91 for the CFG words of a commit: 0 accepted, 1 divider or frequency limit, 2 beat period too long. An output that is
not enabled stands low and has no frequency (DEDUCED, notes/assumptions/23.md). Where both limits are broken the result
is 1 (DESIGN CHOICE, notes/assumptions/74.md). -/
def limitResult (y : Syn) (x : Synth) (ws : List Word) : Nat :=
  let fast (n : Nat) (w : Word) : Bool :=
    match y, outLimit n with
    | .a, some k => cfgOn w && !x.atMost (cfgDiv w) k
    | _, _ => false
  if ws.any (fun w => decide (cfgDiv w < 4)) || ((List.range ws.length).zip ws).any fun p => fast p.1 p.2 then 1
  else if 1048575 < beatOf (ws.map cfgDiv) then 2
  else 0

/-- The CFG words that a commit would bring into force. -/
def State.nextCfg (s : State) (y : Syn) : List Word :=
  (List.range (synOutputs y)).map fun n =>
    let a := synCfg y n
    match regRow a with
    | some r => BitVec.ofNat 32 (andNot (s.liveReg a).toNat r.rwb + land (s.shadowAt a).toNat r.rwb)
    | none => s.liveReg a

/-- The beat-length registers follow the dividers in force. -/
def State.showBeat (s : State) (y : Syn) : State :=
  let b := beatOf ((List.range (synOutputs y)).map fun n => cfgDiv (s.liveReg (synCfg y n)))
  s.put (match y with | .a => CLK_BEAT_A_beat_half | .b => CLK_BEAT_B_beat_half) b

/-! ### Plans -/

/-- A plan of one synthesizer: the SYNTH record's fields, outputs as (div, en, fine, coarse). -/
structure SynPlan where
  refDiv : Nat
  fbN : Nat
  refKhz : Nat
  localDiv : Nat
  outs : List (Nat × Bool × Nat × Nat)
deriving DecidableEq, Repr

/-- The record of SYNA at offset 0, of SYNB at offset 0x2C of a SYNTH body (04, SYNTH body). -/
def planRecord (y : Syn) (b : List Byte) : SynPlan :=
  let o := match y with | .a => 0 | .b => 0x2C
  { refDiv := leAt b (o + 1) 1, fbN := leAt b (o + 2) 2, refKhz := leAt b (o + 4) 4, localDiv := leAt b (o + 8) 1
    outs := (List.range (synOutputs y)).map fun j =>
      let w := leAt b (o + 12 + 4 * j) 4
      (bits w 0 10, bit w 16, bits w 17 3, bits w 20 8) }

/-- The boot plan for a measured reference; in Minimal Mode PIX, ADC and HKCLK run too (R147, R166). -/
def bootPlan (khz : Nat) (minimal : Bool) : SynPlan :=
  let d := fun n => if n = 3 then 10 else if n = 1 ∧ minimal then 28 else if n = 6 ∧ minimal then 226 else 36
  let on := fun n => n == 3 || n == 4 || (minimal && (n == 0 || n == 1 || n == 6))
  { refDiv := 1, fbN := ceilDiv 3368000 khz, refKhz := khz, localDiv := 16
    outs := (List.range 8).map fun n => (d n, on n, 0, 0) }

/-- The published SYNB settings for a measured reference, where it lies within 6 % of a published one (R148). -/
def publishedSynb (khz : Nat) : Option SynPlan :=
  ([(19200, 2, 407), (25000, 4, 625), (40000, 3, 293), (50000, 8, 625)].find? fun p =>
    decide ((khz - p.1 + (p.1 - khz)) * 100 ≤ 6 * p.1)).map fun p =>
      { refDiv := p.2.1, fbN := p.2.2, refKhz := p.1, localDiv := 0, outs := [(5, true, 0, 0), (8, true, 0, 0)] }

/-- A plan's divider, enable and delays come into force, shadow and all (R92, R102). -/
def State.loadPlan (s : State) (y : Syn) (p : SynPlan) : State :=
  let s1 := ((List.range (synOutputs y)).zip p.outs).foldl
    (fun s e =>
      let o := e.2
      let cfg : Word := BitVec.ofNat 32 (o.1 + 2 ^ 16 * b2n o.2.1 + (if y = .a ∧ e.1 = 1 then 2 ^ 20 * (p.localDiv % 16) else 0))
      let dly : Word := BitVec.ofNat 32 (o.2.2.1 + 8 * o.2.2.2)
      (((s.setReg (synCfg y e.1) cfg).setLive (synCfg y e.1) cfg).setReg (synDly y e.1) dly).setLive (synDly y e.1) dly) s
  let x := s1.synth y
  let s2 := s1.setSynth y { x with refDiv := p.refDiv, fbN := p.fbN, refKhz := p.refKhz }
  let a := match y with | .a => aCLK_SYNA_PLAN | .b => aCLK_SYNB_PLAN
  let mhz := p.refKhz * p.fbN / (max 1 p.refDiv) / 1000
  (s2.setReg a (BitVec.ofNat 32 (p.refDiv + 2 ^ 4 * p.fbN + 2 ^ 16 * mhz))).showBeat y

/-- The plan in force equals `p` in everything that a launch fixes: ref_div, N, dividers, enables (R150). -/
def State.planInForce (s : State) (y : Syn) (p : SynPlan) : Bool :=
  let x := s.synth y
  x.refDiv == p.refDiv && x.fbN == p.fbN && x.refKhz == p.refKhz &&
    ((List.range (synOutputs y)).zip p.outs).all fun e =>
      cfgDiv (s.liveReg (synCfg y e.1)) == e.2.1 && cfgOn (s.liveReg (synCfg y e.1)) == e.2.2.1

/-! ### Commits (R88 to R91) -/

/-- A frame is read out, or its readout may start (R89). With run at 0 the commit waits for the readout in progress, and
for a global frame that still integrates or whose readout has not begun (DEDUCED, notes/assumptions/56.md). -/
def State.readoutBusy (s : State) : Bool := s.power == 4 && (s.on SHT_CTRL_run || s.sht.reading || s.sht.phase != 0)

/-- A SYNA commit that changes output 0 or 1 waits for the frame boundary of R89. -/
def State.commitHeld (s : State) (y : Syn) : Bool :=
  match y with
  | .b => false
  | .a =>
    let changes (a : Nat) : Bool := s.shadowAt a != s.liveReg a
    s.readoutBusy && !s.clk.a.afterBoundary && ([0, 1].any fun n => changes (synCfg .a n) || changes (synDly .a n))

/-- The vote failures of settings that the host has written end with the commit (R649). -/
def State.commitVotes (s : State) (y : Syn) : State :=
  let left := s.clk.voteFails.filter fun v => !(v.written && v.inForce && (synSettings y).contains v.addr)
  let s1 := s.withClk { s.clk with voteFails := left }
  s1.put SAFE_SEU_vote_fail (b2n !left.isEmpty)

/-- The commit comes into force at this beat, or is rejected (R88, R91). -/
def State.commitNow (s : State) (y : Syn) : State :=
  let r := limitResult y (s.synth y) (s.nextCfg y)
  let s1 := ((s.put (synCommit y) 0).put (synResult y) r).setSynth y { s.synth y with afterBoundary := false }
  if r ≠ 0 then s1.hwSet CLK_IRQ_STAT_commit_rejected
  else
    let b := match y with | .a => Boundary.commitA | .b => .commitB
    ((((s1.boundary b fun _ => true).showBeat y).hwSet (synIrq y 4)).commitVotes y).hkCheck

/-- A commit is requested (R88). -/
def State.commitAsked (s : State) (y : Syn) : State :=
  if s.on (synCommit y) then s
  else (s.put (synCommit y) 1).setSynth y { s.synth y with commitCycle := s.cycle, afterBoundary := false }

/-- COMMIT: CLK_SYNx_CTRL.commit written 1. -/
def execCommit (syn : Syn) (s : State) : Host.Outcome State Fault Refusal := .next (s.commitAsked syn)

/-- COMMIT_AT_BEAT: a beat of a locked synthesizer; a commit requested in this same cycle waits for the next (R13). -/
def execCommitAtBeat (syn : Syn) (s : State) : Host.Outcome State Fault Refusal :=
  .next (if s.on (synCommit syn) ∧ (s.synth syn).locked ∧ (s.synth syn).commitCycle < s.cycle ∧ !s.commitHeld syn then
    s.commitNow syn
  else s)

/-- A frame boundary passes for a SYNA commit that waits (R89). -/
def State.commitBoundary (s : State) : State :=
  if s.on (synCommit .a) ∧ s.clk.a.commitCycle < s.cycle then s.setSynth .a { s.clk.a with afterBoundary := true } else s

/-! ### Lock, launch and loss of lock (R82 to R84, R701) -/

/-- SYS runs from SYNA output 4, or from the boot oscillator, with TIME_INC to match (R432). -/
def State.sysSource (s : State) (syna : Bool) : State :=
  let x := s.clk.a
  let num := x.vcoDiv * 2000
  let den := x.refDiv * cfgDiv (s.liveReg (synCfg .a 4))
  let inc := if syna then (2 * 2 ^ 24 * 10 ^ 9 * den + num) / (2 * num) else 0x0A000000
  (((s.put CLK_STATUS_sys_src (b2n syna)).put TIME_INC_inc inc).put TIME_STATUS_coarse (b2n !syna)).hkCheck

/-- A synthesizer declares lock and launches: a held commit comes into force at the launch edge (R82, R83). -/
def State.launch (s : State) (y : Syn) : State :=
  let s1 := (s.setSynth y { s.synth y with locked := true, lost := false, trying := false }).put (synLockBit y) 1
  let s2 := (if s1.on (synCommit y) then s1.commitNow y else s1).hwSet (synIrq y 2)
  (match y with
   | .a => s2.sysSource true
   | .b => s2.lanesStart).refault

/-- SYN_LOCK: the phase error has stayed in its window; the reference is present and the synthesizer tries to lock. -/
def execSynLock (syn : Syn) (s : State) : Host.Outcome State Fault Refusal :=
  .next (if (s.synth syn).running ∧ (s.synth syn).trying ∧ !(s.synth syn).locked ∧ s.on CLK_STATUS_ref_present then s.launch syn else s)

/-- A synthesizer begins to lock: its outputs stand low until the launch (R82, R83). -/
def State.startSyn (s : State) (y : Syn) : State :=
  let s1 := (s.setSynth y { s.synth y with running := true, locked := false, trying := true, lost := false }).put (synLockBit y) 0
  match y with
  | .a => s1.sysSource false
  | .b => if s.clk.b.locked then s1.lanesStop else s1

/-- A synthesizer is stopped by a power state: no loss of lock (R637). -/
def State.stopSyn (s : State) (y : Syn) : State :=
  let s1 := (s.setSynth y { s.synth y with running := false, locked := false, trying := false, lost := false }).put (synLockBit y) 0
  match y with
  | .a => s1.sysSource false
  | .b => s1

/-- The readout in progress ends without a readout end: each ring closes its frame, runs keep their deadlines (R40; 03,
SYNA loses lock). It is no frame boundary: what waits for one goes on waiting (R130; DESIGN CHOICE,
notes/assumptions/76.md). No flush and no guard follow, since there is no readout end (R242). -/
def State.cutReadout (s : State) : State :=
  let h := s.sht
  let s1 := match h.reading, h.cur with
    | true, some f0 =>
      let f := s.gather f0
      let s1 := (s.setSht { h with cur := some f }).endRuns f
      s1.windows.foldl (fun (t : State) i => match t.window? i with | some w => t.cutFrame i w f | none => t) s1
    | _, _ => s
  let s2 := s1.setSht { s1.sht with
    running := false, reading := false, next := none, accepted := false, phase := 0, subNext := [],
    after := if h.reading then guardSlots else h.after }
  ((s2.put SHT_STATUS_integrating 0).showSht).settleIdle

/-- A synthesizer loses lock (R84; 03, SYNA loses lock, SYNB loses lock). -/
def State.loseLock (s : State) (y : Syn) : State :=
  if !(s.synth y).locked then s
  else
    let s1 := (s.setSynth y { s.synth y with locked := false, lost := true, trying := false }).put (synLockBit y) 0
    let s2 := (s1.bump (synLosses y)).hwSet (synIrq y 0)
    (match y with
     | .a => ((s2.sysSource false).put TIME_STATUS_synced 0).cutReadout.report 0x89 1 [0]
     | .b => (s2.lanesStop).report 0x8A 1 [0]).refault

/-- LOSS_OF_LOCK: the phase error has left the lock window in 4 consecutive phase-detector cycles (R84). -/
def execLossOfLock (syn : Syn) (s : State) : Host.Outcome State Fault Refusal := .next (s.loseLock syn)

/-- REF_LOST: no reference edge for 2 µs; both synthesizers lose lock (R84). -/
def execRefLost (s : State) : Host.Outcome State Fault Refusal :=
  .next (if s.on CLK_STATUS_ref_present then
    let s1 := ((s.put CLK_STATUS_ref_present 0).put CLK_REF_MEAS_ref_khz 0).hwSet CLK_IRQ_STAT_ref_lost
    ((s1.report 0x8B 1 [0]).loseLock .a).loseLock .b
  else s)

/-- A relock attempt with the settings in force, while auto_relock is 1 and the reference is present. -/
def State.attempt (s : State) (y : Syn) : State :=
  let x := s.synth y
  if x.running ∧ !x.locked ∧ x.lost ∧ s.on (synAuto y) ∧ s.on CLK_STATUS_ref_present then s.setSynth y { x with trying := true }
  else s

/-- REF_RETURN: reference edges return, and an attempt is made at once (CLK_SYNx_CTRL.auto_relock). -/
def execRefReturn (s : State) : Host.Outcome State Fault Refusal :=
  .next (((s.put CLK_STATUS_ref_present 1).attempt .a).attempt .b)

/-- AUTO_RELOCK_ATTEMPT: every 1 ms after a loss of lock. -/
def execAutoRelockAttempt (syn : Syn) (s : State) : Host.Outcome State Fault Refusal := .next (s.attempt syn)

/-- SYNB starts with the published settings of the measured reference, where it has them and does not run (R148). -/
def State.startPublished (s : State) : State :=
  match publishedSynb (s.get CLK_REF_MEAS_ref_khz) with
  | some p => if s.clk.b.running then s else (s.loadPlan .b p).startSyn .b
  | none => s

/-- SYNA in Minimal Mode (R166, R168): the boot plan with PIX, ADC and HKCLK, on a SYNA that keeps its lock where it has
the boot plan already; every synthesizer stopped without a reference. -/
def State.minimalSyna (s : State) : State :=
  let khz := s.get CLK_REF_MEAS_ref_khz
  if !s.on CLK_STATUS_ref_present ∨ khz = 0 then (s.stopSyn .a).stopSyn .b
  else
    let p := bootPlan khz true
    let x := s.clk.a
    let same := x.running && x.refDiv == p.refDiv && x.fbN == p.fbN && x.refKhz == p.refKhz
    let s1 := s.loadPlan .a p
    if same then s1 else s1.startSyn .a

/-- The clocks on entry to Minimal Mode, where a published SYNB starts as well (R148). -/
def State.minimalClocks (s : State) : State :=
  let s1 := s.minimalSyna
  if s1.clk.a.running then s1.startPublished else s1

/-- REF_MEAS_UPDATE: the reference in kHz, 0 with none present (R701). Minimal Mode without clocks starts SYNA then (R166);
SYNB starts at the points of R148 only. -/
def execRefMeasUpdate (khz : Nat) (s : State) : Host.Outcome State Fault Refusal :=
  .next (
    let t := s.put CLK_REF_MEAS_ref_khz (if s.on CLK_STATUS_ref_present then khz else 0)
    if t.boot.phase = .minimal ∧ t.power ≠ 1 ∧ !t.clk.a.running then t.minimalSyna else t)

/-- A relock with the settings in force; refused in STREAM (03, CLK_SYNx_CTRL). A synthesizer that does not run, stopped in
SLEEP or not started yet, has no outputs to stop: the write does nothing and leaves commit_result (DESIGN CHOICE,
notes/assumptions/74.md). -/
def State.relockAsked (s : State) (y : Syn) : State :=
  if s.power = 4 then (s.put (synResult y) 3).hwSet CLK_IRQ_STAT_commit_rejected
  else if (s.synth y).running then (s.put (synResult y) 0).startSyn y
  else s

/-- RELOCK: CLK_SYNx_CTRL.relock written 1. -/
def execRelock (syn : Syn) (s : State) : Host.Outcome State Fault Refusal := .next (s.relockAsked syn)

/-- A write of CLK_SYNx_CTRL: auto_relock, then relock and commit. -/
def State.synCtrlWrite (s : State) (y : Syn) (v : Word) : State :=
  let a := match y with | .a => aCLK_SYNA_CTRL | .b => aCLK_SYNB_CTRL
  let s1 := s.plainWrite a v
  let s2 := if bit v.toNat 1 then s1.relockAsked y else s1
  if bit v.toNat 0 then s2.commitAsked y else s2

/-! ### Triplicated settings (R93, R453, R649) -/

/-- The synthesizer whose setting register stands at `a`, if any. -/
def synOf (a : Nat) : Option Syn :=
  if (synSettings .a).contains a then some .a else if (synSettings .b).contains a then some .b else none

/-- An EVF_FIRE_DELAY register. -/
def isFireDelay (a : Nat) : Bool := (List.range 8).any fun i => aEVF_FIRE_DELAY i == a

/-- The majority vote of three copies, if two agree (R93, R453). -/
def copiesVote (c : Copies) : Option Word :=
  if c.c0 = c.c1 ∨ c.c0 = c.c2 then some c.c0 else if c.c1 = c.c2 then some c.c1 else none

/-- A triplicated setting takes the value `v`: in force or in its shadow. -/
def State.setSetting (s : State) (addr : Nat) (inForce : Bool) (v : Word) : State :=
  match synOf addr with
  | some y => if inForce then (s.setLive addr v).showBeat y else s.setReg addr v
  | none => s.setReg addr v

/-- SINGLE_UPSET_CORRECTED: the copies of a setting stand as given, two of them agree, and the vote rewrites the third (R93,
R453). A double upset that leaves two copies equal is voted to the upset value (22, Triplicated settings). -/
def execSingleUpsetCorrected (upset : Upset) (s : State) : Host.Outcome State Fault Refusal :=
  .next (match copiesVote upset.copies with
  | none => s
  | some v =>
    let t := s.setSetting upset.addr upset.inForce v
    if (synOf upset.addr).isSome then ((t.bump CLK_SEU_COUNT_corrected).hwSet CLK_IRQ_STAT_seu).count 120
    else if isFireDelay upset.addr then ((t.bump EVF_SEU_corrected).hwSet EVF_IRQ_STAT_seu).count 120
    else s)

/-- A setting whose copies do not vote is listed with its copies 1 and 2, and acts with copy 0 (R649). -/
def State.voteFails (s : State) (addr : Nat) (inForce : Bool) (c : Copies) (cause block : Nat) : State :=
  let t := s.setSetting addr inForce c.c0
  let vs := t.clk.voteFails.filter fun v => !(v.addr == addr && v.inForce == inForce)
  let f : VoteFail := { addr := addr, inForce := inForce, copy1 := c.c1, copy2 := c.c2 }
  (((t.withClk { t.clk with voteFails := vs ++ [f] }).put SAFE_SEU_vote_fail 1).report cause block [addr % 0x10000]).setFault
    (2 ^ 5)

/-- VOTE_FAILURE: no two copies agree, and the setting acts with copy 0 (R649): a value in force at once, a shadow when a
commit brings it into force. -/
def execVoteFailure (addr : Nat) (inForce : Bool) (copies : Copies) (s : State) : Host.Outcome State Fault Refusal :=
  .next (if (copiesVote copies).isSome then s
  else if (synOf addr).isSome then s.voteFails addr inForce copies 0x92 1
  else if isFireDelay addr then s.voteFails addr false copies 0x93 12
  else s)

/-- A host write of a triplicated register rewrites what it reaches: a shadow's failure ends, one of a value in force ends
with the commit (R649). A field that the host cannot write keeps its failure (R92). -/
def State.voteWrite (s : State) (a : Nat) : State :=
  let writable := match regRow a with | some r => r.rw != 0 | none => false
  if s.clk.voteFails.isEmpty || !writable then s
  else
    let vs := (s.clk.voteFails.filter fun v => !(v.addr == a && !v.inForce)).map fun v =>
      if v.addr = a then { v with written := true } else v
    (s.withClk { s.clk with voteFails := vs }).put SAFE_SEU_vote_fail (b2n !vs.isEmpty)

/-- A full image restores every setting (R649). -/
def State.votesRestored (s : State) : State :=
  let vs := s.clk.voteFails.filter fun v => (synOf v.addr).isNone
  (s.withClk { s.clk with voteFails := vs }).put SAFE_SEU_vote_fail (b2n !vs.isEmpty)

end Sys2Proof.Machine
end

