-- ==== Sys2Proof/Machine/Ecdsa.lean ====
section
/-! DEFINITION. ECDSA over NIST P-256 with SHA-256, as R115 and R116 use it. -/

namespace Sys2Proof.Machine

/-- The field prime, the order of the group, the curve constant b and the base point of P-256. -/
def p256P : Nat := 0xFFFFFFFF00000001000000000000000000000000FFFFFFFFFFFFFFFFFFFFFFFF
def p256N : Nat := 0xFFFFFFFF00000000FFFFFFFFFFFFFFFFBCE6FAADA7179E84F3B9CAC2FC632551
def p256B : Nat := 0x5AC635D8AA3A93E7B3EBBD55769886BC651D06B0CC53B0F63BCE3C3E27D2604B
def p256G : Nat × Nat :=
  (0x6B17D1F2E12C4247F8BCE6E563A440F277037D812DEB33A0F4A13945D898C296,
   0x4FE342E2FE1A7F9B8EE7EB4A7C0F9E162BCE33576B315ECECBB6406837BF51F5)

/-- `x ^ e` modulo `m`, by squaring over `f` bits of `e`. -/
def powMod (m : Nat) : Nat → Nat → Nat → Nat
  | 0, _, _ => 1 % m
  | f + 1, x, e =>
    let h := powMod m f (x * x % m) (e / 2)
    if e % 2 = 1 then x * h % m else h

/-- The inverse modulo a prime. -/
def invMod (m x : Nat) : Nat := powMod m 256 (x % m) (m - 2)

/-- Difference modulo `m`. -/
def subMod (m a b : Nat) : Nat := (a + m - b % m) % m

/-- A point of the curve, none for the point at infinity. -/
abbrev EcPoint := Option (Nat × Nat)

/-- The line of slope `l` through `p`, met again. -/
def ecThird (l : Nat) (p q : Nat × Nat) : EcPoint :=
  let x := subMod p256P (subMod p256P (l * l % p256P) p.1) q.1
  some (x, subMod p256P (l * subMod p256P p.1 x % p256P) p.2)

/-- Addition on the curve. -/
def ecAdd : EcPoint → EcPoint → EcPoint
  | none, q => q
  | p, none => p
  | some p, some q =>
    if p.1 = q.1 then
      if p.2 = q.2 ∧ p.2 ≠ 0 then
        ecThird ((3 * (p.1 * p.1) + (p256P - 3)) % p256P * invMod p256P (2 * p.2) % p256P) p q
      else none
    else ecThird (subMod p256P q.2 p.2 * invMod p256P (subMod p256P q.1 p.1) % p256P) p q

/-- `k` times a point, over `f` bits of `k`. -/
def ecMul : Nat → Nat → EcPoint → EcPoint
  | 0, _, _ => none
  | f + 1, k, p =>
    let h := ecMul f (k / 2) (ecAdd p p)
    if k % 2 = 1 then ecAdd p h else h

/-- The point lies on P-256. -/
def ecOnCurve (x y : Nat) : Bool :=
  decide (x < p256P ∧ y < p256P) &&
    (y * y % p256P == ((x * x % p256P) * x + (p256P - 3) * x + p256B) % p256P)

/-- R116: the key is a point of the curve, r and s lie in 1 to n − 1, and the verification holds. -/
def ecdsaOk (qx qy r s : Nat) (msg : List Byte) : Bool :=
  ecOnCurve qx qy && decide (1 ≤ r ∧ r < p256N ∧ 1 ≤ s ∧ s < p256N) &&
    (let z := beNat (sha256 msg)
     let w := invMod p256N s
     match ecAdd (ecMul 256 (z * w % p256N) (some p256G)) (ecMul 256 (r * w % p256N) (some (qx, qy))) with
     | none => false
     | some p => p.1 % p256N == r)

end Sys2Proof.Machine
end

