-- ==== Sys2Proof/Machine/Pio.lean ====
section
/-! DEFINITION. The pin engines: steps, the twelve instructions, shifts and exchanges, signals, and host control
(20_pin_engines.md). -/

namespace Sys2Proof.Machine

/-! ### Engines and their section (R595) -/

/-- Engine `n` exists (R102). -/
def State.pioExists (s : State) (n : Nat) : Bool := decide (n < 8) && s.has 9 n

/-- The fields of its PIO_PROG body (R595). -/
def State.pioBody (s : State) (n : Nat) : List Byte := s.body 9 n
def State.pioFlag (s : State) (n i : Nat) : Bool := bit (leAt (s.pioBody n) 0 1) i
def State.pioLen (s : State) (n : Nat) : Nat := leAt (s.pioBody n) 1 1
def State.pioOwn (s : State) (n : Nat) : Nat := leAt (s.pioBody n) 0x0E 2
def State.pioTxDepth (s : State) (n : Nat) : Nat := leAt (s.pioBody n) 0x0A 1
def State.pioRxDepth (s : State) (n : Nat) : Nat := 16 - s.pioTxDepth n
def State.pioCode (s : State) (n pc : Nat) : Nat := leAt (s.pioBody n) (0x50 + 4 * pc) 4

/-- Engine `n` beyond its registers. -/
def State.eng (s : State) (n : Nat) : PioEng := Sparse.get {} s.pio.engs n

/-- PIOCLK reaches the engines (R626, R638, R642). -/
def State.pioRuns (s : State) : Bool :=
  s.synaOut 5 && decide (2 ≤ s.power) && (decide (s.power < 3) || s.on PWR_BLOCK_EN_pio)

/-- The run bit of engine `n`. -/
def State.pioOn (s : State) (n : Nat) : Bool := bit (s.get PIO_CTRL_run) n

/-! ### Pins (R592 to R594) -/

/-- Level and direction that engine `n` gives pin `p`: its reset state, its halt level while stopped or in SLEEP, or the
state it drives (R594, R622, R638). -/
def State.pinOf (s : State) (n p : Nat) : Bool × Bool :=
  let lev := bit s.pio.lev p
  let dir := bit s.pio.dir p
  if (s.eng n).parked then (false, false)
  else if s.pioOn n && decide (2 ≤ s.power) then (lev, dir)
  else match bits (leAt (s.pioBody n) 0x10 4) (2 * p) 2 with
    | 0 => (false, true)
    | 1 => (true, true)
    | 2 => (lev, dir)
    | _ => (lev, false)

/-- The engine that owns pin `p` (R592). -/
def State.pinOwner (s : State) (p : Nat) : Option Nat :=
  (List.range 8).find? fun n => s.pioExists n && bit (s.pioOwn n) p

/-- PIO_STATUS and PIO_PIN_OUT follow the engines. -/
def State.showPio (s : State) : State :=
  let own := (List.range 16).map fun p => (s.pinOwner p).map fun n => s.pinOf n p
  let pick (f : Bool × Bool → Bool) : Nat :=
    maskOf ((List.range 16).filter fun p => match own.getD p none with | some x => f x | none => false)
  let ex := (List.range 8).filter s.pioExists
  ((((s.put PIO_STATUS_exists (maskOf ex)).put PIO_STATUS_running (maskOf (ex.filter s.pioOn))).put PIO_STATUS_stalled
    (maskOf (ex.filter fun n => (s.eng n).stall != 0))).put PIO_PIN_OUT_level (pick (·.1))).put PIO_PIN_OUT_dir (pick (·.2))

/-- Engine `n` replaced. -/
def State.setEng (s : State) (n : Nat) (e : PioEng) : State :=
  (s.withPio { s.pio with engs := Sparse.put {} s.pio.engs n e }).showPio

/-- Levels and directions of the pins in `mask` are written. -/
def State.drivePins (s : State) (mask : Nat) (lev dir : Option Nat) : State :=
  let mix (old : Nat) (v : Option Nat) : Nat := match v with | some x => andNot old mask + land x mask | none => old
  (s.withPio { s.pio with lev := mix s.pio.lev lev, dir := mix s.pio.dir dir }).showPio

/-- The synchronised levels are `pins`; an AWAIT for an edge sees a change to its level (R593, AWAIT src 4). -/
def State.seePins (s : State) (pins : Nat) : State :=
  let old := s.get PIO_PIN_IN_level
  let s1 := s.put PIO_PIN_IN_level pins
  (List.range 8).foldl
    (fun s n =>
      let e := s.eng n
      match e.latched with
      | some (w, _) =>
        let p := bits w 0 5
        let up := bit w 15
        if bits w 28 4 = 2 ∧ bits w 8 4 = 4 ∧ bit pins p = up ∧ bit old p ≠ up then s.setEng n { e with edge := true }
        else s
      | none => s) s1

/-- Bits `lo` to `lo + k - 1` of the data-in lane: pins above PIO15 and bits beyond the lane read 0 (R593, R603). -/
def State.laneIn (s : State) (n lo k : Nat) : Nat :=
  let base := leAt (s.pioBody n) 6 1
  let width := leAt (s.pioBody n) 7 1
  maskOf ((List.range k).filter fun i =>
    decide (lo + i < width) && decide (base + lo + i < 16) && bit (s.get PIO_PIN_IN_level) (base + lo + i))

/-- A value on the data-out lane: bit i to pin out_base + i, bits beyond the lane ignored. -/
def State.laneOut (s : State) (n v : Nat) (dirs : Bool) : State :=
  let base := leAt (s.pioBody n) 4 1
  let width := leAt (s.pioBody n) 5 1
  let m := (2 ^ width - 1) * 2 ^ base
  let x := v * 2 ^ base
  if dirs then s.drivePins m none (some x) else s.drivePins m (some x) none

/-- The pattern of an instruction is applied (R599). -/
def State.pioPattern (s : State) (n w : Nat) : State :=
  let k := bits w 25 3
  if k = 0 then s
  else
    let o := 0x18 + 6 * (k - 1)
    s.drivePins (leAt (s.pioBody n) o 2) (some (leAt (s.pioBody n) (o + 2) 2)) (some (leAt (s.pioBody n) (o + 4) 2))

/-! ### Causes (R623) -/

/-- Cause `c` of engine `n`, with its counter and interrupt. -/
def State.pioCause (s : State) (n c : Nat) : State :=
  let s1 := s.put (PIO_ENG_STAT_cause n) c
  if c = 0xB2 then (s1.bump (PIO_ENG_COUNTS_b2 n)).hwSet PIO_IRQ_STAT_fifo_error
  else if c = 0xB3 then (s1.bump (PIO_ENG_COUNTS_b3 n)).hwSet PIO_IRQ_STAT_fifo_error
  else if c = 0xB4 then (s1.bump (PIO_ENG_COUNTS_b4 n)).hwSet PIO_IRQ_STAT_fifo_error
  else if c = 0xB7 then s1.bump (PIO_ENG_COUNTS_b7 n)
  else if c = 0xB1 then (s1.hwSet PIO_IRQ_STAT_halted (2 ^ n)).report 0xB1 18 [n]
  else s1.hwSet PIO_IRQ_STAT_refused

/-- The run bit of engine `n` set or cleared. -/
def State.setPioRun (s : State) (n : Nat) (on : Bool) : State :=
  (s.put PIO_CTRL_run (setBits (s.get PIO_CTRL_run) n 1 (b2n on))).showPio

/-- The engine halts with cause 0xB1 (R601). -/
def State.pioHalt (s : State) (n : Nat) : State := (s.pioCause n 0xB1).setPioRun n false

/-! ### Shift state, restart, flags -/

/-- The shift state is cleared, and any instruction in hand is abandoned (R608, R612, R615). -/
def PioEng.clearShift (e : PioEng) : PioEng :=
  { e with sr := 0, count := 0, taken := 0, out := 0, rep := 0, dwell := 0, latched := none, stall := 0, edge := false }

/-- Flag `f` of engine `n` takes a value: Crossroads source 50 + 2n + f (R610). -/
def State.pioSetFlag (s : State) (n f : Nat) (v : Bool) : State :=
  let e := s.eng n
  (s.setEng n { e with flags := setBits e.flags f 1 (b2n v) }).arrive (50 + 2 * n + f) v

/-- The state of R614: pc at entry; FIFOs, run bit and pins stay. -/
def State.pioRestart (s : State) (n : Nat) : State :=
  let e := s.eng n
  let s1 := s.setEng n { e.clearShift with v0 := 0, v1 := 0, signal := false, last := 0 }
  ((s1.pioSetFlag n 0 false).pioSetFlag n 1 false).put (PIO_ENG_PC_pc n) (leAt (s.pioBody n) 2 1)

/-! ### Words (R598) -/

/-- The low `n` bits of `x` in reverse order. -/
def reverseBits (n x : Nat) : Nat := maskOf ((List.range n).filter fun i => bit x (n - 1 - i))

/-- An instruction word is legal under R598 for an engine whose data-in lane has `width` pins. -/
def pioLegal (width w : Nat) : Bool :=
  let z (lo n : Nat) : Bool := bits w lo n == 0
  match bits w 28 4 with
  | 0x0 => z 0 22
  | 0x1 => z 12 10 && z 6 2 && decide (bits w 8 4 ≤ 11)
  | 0x2 => z 16 6 && z 12 3 && z 5 3 && (match bits w 8 4 with
    | 0 => decide (bits w 0 5 < 16)
    | 1 => decide (bits w 0 5 < width)
    | 2 => bit w 15 && z 0 5
    | 3 => decide (bits w 0 5 < 16)
    | 4 => decide (bits w 0 5 < 16)
    | _ => false)
  | 0x3 => z 17 5 && (!bit w 16 || z 1 15)
  | 0x4 => z 17 5
  | 0x5 => z 12 10 && z 2 2 && decide (bits w 8 4 ≤ 6) && decide (bits w 4 4 ≤ 6)
  | 0x6 => z 5 17
  | 0x7 => z 1 21
  | 0x8 => z 1 21
  | 0x9 => z 1 21
  | 0xA => z 5 17 && z 2 2
  | 0xB => z 17 5
  | _ => false

/-! ### Completion (R597, R599, R600) -/

/-- The latched instruction of engine `n` has the opcode `op` and may execute. -/
def State.pioHas (s : State) (n op : Nat) : Option Nat :=
  if s.pioExists n && s.pioRuns then
    match (s.eng n).latched with
    | some (w, inj) => if bits w 28 4 = op ∧ (s.pioOn n = true ∨ inj = true) then some w else none
    | none => none
  else none

/-- The instruction stalls with code `k`. -/
def State.pioStall (s : State) (n k : Nat) : State := s.setEng n { s.eng n with stall := k }

/-- An engine whose instruction has completed, with the dwell steps that follow. -/
def PioEng.finished (e : PioEng) (d : Nat) : PioEng :=
  { e with latched := none, stall := 0, edge := false, taken := 0, out := 0, dwell := d }

/-- The dwell of an instruction in steps (R599). -/
def State.dwellOf (s : State) (n w : Nat) : Nat :=
  let k := bits w 22 3
  if k = 0 then 0 else leAt (s.pioBody n) (0x42 + 2 * (k - 1)) 2

/-- The pc after an instruction that names none: the next word, and 0 after the last (R597). -/
def State.pcNext (s : State) (n : Nat) : Nat :=
  let pc := s.get (PIO_ENG_PC_pc n)
  if pc + 1 < s.pioLen n then pc + 1 else 0

/-- The instruction completes, setting pc where it names one: dwell, repetition and pc (R597, R600, R616). The pattern
has been applied. -/
def State.pioDone (s : State) (n w : Nat) (target : Option Nat) : State :=
  let e := s.eng n
  let inj := match e.latched with | some (_, i) => i | none => false
  let done := { e.finished (s.dwellOf n w) with dwellOwn := inj }
  match target with
  | some t => (s.setEng n { done with rep := 0 }).put (PIO_ENG_PC_pc n) t
  | none =>
    if inj then s.setEng n done
    else if 1 < e.rep then s.setEng n { done with rep := e.rep - 1 }
    else (s.setEng n { done with rep := 0 }).put (PIO_ENG_PC_pc n) (s.pcNext n)

/-- A value register. -/
def PioEng.v (e : PioEng) (r : Bool) : Nat := if r then e.v1 else e.v0
def PioEng.setV (e : PioEng) (r : Bool) (x : Nat) : PioEng :=
  if r then { e with v1 := x % 65536 } else { e with v0 := x % 65536 }

/-! ### Exchanges and shifts (R602 to R605, R607) -/

/-- An exchange that may wait does wait (R605). -/
def State.exchangeWaits (s : State) (n : Nat) : Bool :=
  let e := s.eng n
  (decide (0 < s.pioRxDepth n) && decide (s.pioRxDepth n ≤ e.rx.length)) || (decide (0 < s.pioTxDepth n) && e.tx.isEmpty)

/-- SR goes into the RX FIFO, or is discarded with cause 0xB4 while it is full. -/
def State.pushRx (s : State) (n : Nat) : State :=
  let e := s.eng n
  if e.rx.length < s.pioRxDepth n then s.setEng n { e with rx := e.rx ++ [e.sr] } else s.pioCause n 0xB4

/-- SR takes the oldest word of the TX FIFO, or the last word taken while it is empty; the count is 0 (R607). -/
def State.pullTx (s : State) (n : Nat) : State :=
  let e := s.eng n
  match e.tx with
  | w :: r => s.setEng n { e with tx := r, sr := w, last := w, count := 0 }
  | [] => s.setEng n { e with sr := e.last, count := 0 }

/-- One exchange (R605). -/
def State.exchange (s : State) (n : Nat) : State :=
  let s1 := if 0 < s.pioRxDepth n then s.pushRx n else s
  if 0 < s1.pioTxDepth n then s1.pullTx n else s1.setEng n { s1.eng n with sr := 0, count := 0 }

/-- `k` bits leave SR and `k` bits of the data-in lane, from its bit `e.taken` on, enter it (R602, R603). -/
def State.shiftBits (s : State) (n k : Nat) : State :=
  let e := s.eng n
  let right := s.pioFlag n 1
  let x := s.laneIn n e.taken k
  let o := if right then e.sr % 2 ^ k else reverseBits k (e.sr / 2 ^ (32 - k))
  let sr := if right then e.sr / 2 ^ k + x * 2 ^ (32 - k) else (e.sr * 2 ^ k + reverseBits k x) % 2 ^ 32
  s.setEng n { e with sr := sr % 2 ^ 32, count := min 32 (e.count + k), taken := e.taken + k, out := e.out + o * 2 ^ e.taken }

/-- A shift of `total` bits goes on, exchanging when the count reaches frame; true when it has all its bits and no
exchange waits (R604). -/
def State.shiftRun : Nat → State → Nat → Nat → State × Bool
  | 0, s, _, _ => (s, false)
  | fuel + 1, s, n, total =>
    let e := s.eng n
    let left := total - e.taken
    if !s.pioFlag n 2 then (s.shiftBits n left, true)
    else
      let f := leAt (s.pioBody n) 9 1
      let k := min left (f - e.count)
      let s1 := s.shiftBits n k
      if (s1.eng n).count < f then (s1, true)
      else if s1.exchangeWaits n then (s1, false)
      else
        let s2 := s1.exchange n
        if (s2.eng n).taken < total then State.shiftRun fuel s2 n total else (s2, true)

/-! ### Instructions (R598, R606) -/

/-- NOP. -/
def State.pioNop (s : State) (n w : Nat) : State := (s.pioPattern n w).pioDone n w none

/-- The condition of a BR (R598). -/
def State.pioCond (s : State) (n c : Nat) : Bool :=
  let e := s.eng n
  let t := bit (s.get PIO_PIN_IN_level) (leAt (s.pioBody n) 8 1)
  match c with
  | 0 => true
  | 1 => e.v0 == 0
  | 2 => e.v0 != 0
  | 3 => e.v1 == 0
  | 4 => e.v1 != 0
  | 5 => t
  | 6 => !t
  | 7 => e.signal
  | 8 => e.tx.isEmpty
  | 9 => decide (s.pioRxDepth n ≤ e.rx.length)
  | 10 => e.count == 0
  | _ => e.v0 == e.v1

/-- BR. -/
def State.pioBr (s : State) (n w : Nat) : State :=
  let c := bits w 8 4
  let s0 := s.pioPattern n w
  if s.pioCond n c then
    let e := s0.eng n
    (if c = 7 then s0.setEng n { e with signal := false } else s0).pioDone n w (some (bits w 0 6))
  else s0.pioDone n w none

/-- The condition of an AWAIT. -/
def State.awaitMet (s : State) (n w : Nat) : Bool :=
  let i := bits w 0 5
  let lev := bit w 15
  let e := s.eng n
  match bits w 8 4 with
  | 0 => bit (s.get PIO_PIN_IN_level) i == lev
  | 1 => bit (s.get PIO_PIN_IN_level) (leAt (s.pioBody n) 6 1 + i) == lev
  | 2 => e.signal
  | 3 => s.level (50 + i) == lev
  | _ => e.edge

/-- AWAIT. -/
def State.pioAwait (s : State) (n w : Nat) : State :=
  if s.awaitMet n w then
    let s1 := s.pioPattern n w
    let e := s1.eng n
    (if bits w 8 4 = 2 then s1.setEng n { e with signal := false } else s1).pioDone n w none
  else s.pioStall n 1

/-- REP (R600). -/
def State.pioRep (s : State) (n w : Nat) : State :=
  let e := s.eng n
  let r := if bit w 16 then e.v (bit w 0) + 1 else if bits w 0 16 = 0 then 65536 else bits w 0 16
  let s1 := (s.pioPattern n w).pioDone n w none
  s1.setEng n { s1.eng n with rep := r }

/-- SETV. -/
def State.pioSetv (s : State) (n w : Nat) : State :=
  let s1 := s.pioPattern n w
  (s1.setEng n ((s1.eng n).setV (bit w 16) (bits w 0 16))).pioDone n w none

/-- The source of a MOVE, zero-extended, and its transform. -/
def State.moveValue (s : State) (n w : Nat) : Nat :=
  let e := s.eng n
  let x := match bits w 4 4 with
    | 0 => s.laneIn n 0 16
    | 1 => e.v0
    | 2 => e.v1
    | 3 => e.sr
    | 4 => e.sr / 65536
    | 5 => e.sr % 65536
    | _ => 0
  match bits w 0 2 with
  | 0 => x
  | 1 => 2 ^ 32 - 1 - x
  | 2 => x / 65536 + 65536 * (x % 65536)
  | _ => reverseBits 32 x

/-- MOVE; a pc at or above code_len halts the engine (R601). -/
def State.pioMove (s : State) (n w : Nat) : State :=
  let x := s.moveValue n w
  let s1 := s.pioPattern n w
  let e := s1.eng n
  match bits w 8 4 with
  | 0 => (s1.laneOut n x false).pioDone n w none
  | 1 => (s1.laneOut n x true).pioDone n w none
  | 2 => (s1.setEng n (e.setV false x)).pioDone n w none
  | 3 => (s1.setEng n (e.setV true x)).pioDone n w none
  | 4 => (s1.setEng n { e with sr := x }).pioDone n w none
  | 5 =>
    let t := x % 64
    let s2 := s1.pioDone n w (some t)
    if s.pioLen n ≤ t then s2.pioHalt n else s2
  | _ => (s1.setEng n { e with count := min 32 (x % 64) }).pioDone n w none

/-- SHIFT: the data-out lane is written once, when it completes (R602 to R604). -/
def State.pioShift (s : State) (n w : Nat) : State :=
  let r := State.shiftRun 80 s n (bits w 0 5 + 1)
  if r.2 then
    let s1 := r.1.pioPattern n w
    (s1.laneOut n (s1.eng n).out false).pioDone n w none
  else r.1.pioStall n 5

/-- XCHG (R605). -/
def State.pioXchg (s : State) (n w : Nat) : State :=
  if bit w 0 && s.exchangeWaits n then s.pioStall n 4 else ((s.pioPattern n w).exchange n).pioDone n w none

/-- LOAD (R607). -/
def State.pioLoad (s : State) (n w : Nat) : State :=
  if bit w 0 && (s.eng n).tx.isEmpty then s.pioStall n 2 else ((s.pioPattern n w).pullTx n).pioDone n w none

/-- STORE (R607). -/
def State.pioStore (s : State) (n w : Nat) : State :=
  if bit w 0 && decide (s.pioRxDepth n ≤ (s.eng n).rx.length) then s.pioStall n 3
  else ((s.pioPattern n w).pushRx n).pioDone n w none

/-- FLAG. -/
def State.pioFlagOp (s : State) (n w : Nat) : State :=
  let f := bits w 4 1
  let a := bits w 0 2
  let s1 := s.pioPattern n w
  let v := if a = 0 then false else if a = 3 then !bit (s1.eng n).flags f else true
  let s2 := s1.pioSetFlag n f v
  (if a = 2 then s2.hwSet PIO_IRQ_STAT_flag_irq (2 ^ n) else s2).pioDone n w none

/-- ADDV. -/
def State.pioAddv (s : State) (n w : Nat) : State :=
  let s1 := s.pioPattern n w
  let e := s1.eng n
  (s1.setEng n (e.setV (bit w 16) (e.v (bit w 16) + bits w 0 16))).pioDone n w none

/-- A latched instruction that has not stalled executes, if its opcode is `op`. -/
def State.pioExec (s : State) (n op : Nat) (f : State → Nat → Nat → State) : State :=
  match s.pioHas n op with
  | some w => if (s.eng n).stall = 0 then f s n w else s
  | none => s

/-- PIO_NOP. -/
def execPioNop (engine : Nat) (s : State) : Host.Outcome State Fault Refusal := .next (s.pioExec engine 0x0 State.pioNop)
/-- PIO_BR. -/
def execPioBr (engine : Nat) (s : State) : Host.Outcome State Fault Refusal := .next (s.pioExec engine 0x1 State.pioBr)
/-- AWAIT. -/
def execAwait (engine : Nat) (s : State) : Host.Outcome State Fault Refusal := .next (s.pioExec engine 0x2 State.pioAwait)
/-- REP. -/
def execRep (engine : Nat) (s : State) : Host.Outcome State Fault Refusal := .next (s.pioExec engine 0x3 State.pioRep)
/-- SETV. -/
def execSetv (engine : Nat) (s : State) : Host.Outcome State Fault Refusal := .next (s.pioExec engine 0x4 State.pioSetv)
/-- MOVE. -/
def execMove (engine : Nat) (s : State) : Host.Outcome State Fault Refusal := .next (s.pioExec engine 0x5 State.pioMove)
/-- SHIFT. -/
def execShift (engine : Nat) (s : State) : Host.Outcome State Fault Refusal := .next (s.pioExec engine 0x6 State.pioShift)
/-- XCHG. -/
def execXchg (engine : Nat) (s : State) : Host.Outcome State Fault Refusal := .next (s.pioExec engine 0x7 State.pioXchg)
/-- PIO_LOAD. -/
def execPioLoad (engine : Nat) (s : State) : Host.Outcome State Fault Refusal := .next (s.pioExec engine 0x8 State.pioLoad)
/-- STORE. -/
def execStore (engine : Nat) (s : State) : Host.Outcome State Fault Refusal := .next (s.pioExec engine 0x9 State.pioStore)
/-- FLAG. -/
def execFlag (engine : Nat) (s : State) : Host.Outcome State Fault Refusal := .next (s.pioExec engine 0xA State.pioFlagOp)
/-- ADDV. -/
def execAddv (engine : Nat) (s : State) : Host.Outcome State Fault Refusal := .next (s.pioExec engine 0xB State.pioAddv)

/-! ### Steps, stalls and jumps (R597, R606, R612) -/

/-- A word is latched for execution. -/
def State.latch (s : State) (n w : Nat) (inj : Bool) : State :=
  s.setEng n { s.eng n with latched := some (w, inj), stall := 0, edge := false, taken := 0, out := 0 }

/-- The next instruction is fetched and latched; a pc at or above code_len halts the engine (R597, R601). -/
def State.pioFetch (s : State) (n : Nat) : State :=
  let pc := s.get (PIO_ENG_PC_pc n)
  if s.pioLen n ≤ pc then s.pioHalt n else s.latch n (s.pioCode n pc) false

/-- PIO_STEP: a step begins: one step of a dwell passes, or at a boundary a pending injection, else the instruction at pc,
is latched; its own row then executes it. A stopped engine takes an injection and its dwell only (R597, R616). -/
def execPioStep (engine pins : Nat) (s : State) : Host.Outcome State Fault Refusal :=
  .next (if s.pioExists engine && s.pioRuns then
    let s1 := s.seePins (pins % 65536)
    let e := s1.eng engine
    if e.latched.isSome then s1
    else if 0 < e.dwell then (if s1.pioOn engine || e.dwellOwn then s1.setEng engine { e with dwell := e.dwell - 1 } else s1)
    else match e.inject with
      | some w => (s1.setEng engine { e with inject := none }).latch engine w true
      | none => if s1.pioOn engine then s1.pioFetch engine else s1
  else s)

/-- STALL_END: a stalled instruction is tried again with the levels given, and completes when its condition holds (R606). -/
def execStallEnd (engine pins : Nat) (s : State) : Host.Outcome State Fault Refusal :=
  .next (if s.pioExists engine && s.pioRuns then
    let s1 := s.seePins (pins % 65536)
    match (s1.eng engine).stall with
    | 1 => match s1.pioHas engine 2 with | some w => s1.pioAwait engine w | none => s1
    | 2 => match s1.pioHas engine 8 with | some w => s1.pioLoad engine w | none => s1
    | 3 => match s1.pioHas engine 9 with | some w => s1.pioStore engine w | none => s1
    | 4 => match s1.pioHas engine 7 with | some w => s1.pioXchg engine w | none => s1
    | 5 => match s1.pioHas engine 6 with | some w => s1.pioShift engine w | none => s1
    | _ => s1
  else s)

/-- VECTORED_JUMP: while sig_jump is 1 and the engine runs, a set latch clears the shift state and sig_target is latched at
once (R612). -/
def execVectoredJump (engine pins : Nat) (s : State) : Host.Outcome State Fault Refusal :=
  .next (if s.pioExists engine && s.pioRuns && s.pioFlag engine 3 && s.pioOn engine && (s.eng engine).signal then
    let s1 := s.seePins (pins % 65536)
    let e := s1.eng engine
    let t := leAt (s1.pioBody engine) 3 1
    ((s1.setEng engine { e.clearShift with signal := false }).put (PIO_ENG_PC_pc engine) t).pioFetch engine
  else s)

/-- The signal latch of engine `n` is set; a set one is counted (R611). -/
def State.pioSignal (s : State) (n : Nat) : State :=
  let e := s.eng n
  if e.signal then s.pioCause n 0xB7 else s.setEng n { e with signal := true }

/-- SIGNAL_PIN_ENGINE: task 18 + n (R415, R611). -/
def execSignalPinEngine (engine : Nat) (s : State) : Host.Outcome State Fault Refusal :=
  .next (if engine < 8 then s.serve (18 + engine) fun s _ _ => if s.pioExists engine then s.pioSignal engine else s else s)

/-! ### Host control (R613 to R618, R622) -/

/-- VDDIO1 stands below its warning level. -/
def State.vddio1Low (s : State) : Bool := bit (s.get SAFE_SUPPLY_warning) 7

/-- The owned pins of engine `n` take init_dir and init_val (R594). -/
def State.pinsInit (s : State) (n : Nat) : State :=
  s.drivePins (s.pioOwn n) (some (leAt (s.pioBody n) 0x16 2)) (some (leAt (s.pioBody n) 0x14 2))

/-- The run bit of engine `n` is written (R613, R622). -/
def State.pioRunWrite (s : State) (n : Nat) (on : Bool) : State :=
  if !s.pioExists n || s.pioOn n == on then s
  else if on && s.vddio1Low then s.pioCause n 0xB6
  else
    let e := s.eng n
    let s1 := if on && e.parked then (s.setEng n { e with parked := false }).pinsInit n else s
    s1.setPioRun n on

/-- PIO_RUN: the run bits take the bits of `mask`. -/
def State.pioRunAll (s : State) (mask : Nat) : State := (List.range 8).foldl (fun s n => s.pioRunWrite n (bit mask n)) s

/-- PIO_RUN. -/
def execPioRun (mask : Nat) (s : State) : Host.Outcome State Fault Refusal := .next (s.pioRunAll mask)

/-- The engines of a mask that exist. -/
def State.pioNamed (s : State) (mask : Nat) : List Nat := (setBitsOf 8 mask).filter s.pioExists

/-- A restart by the host (R614); a pc write that came in the same cycle acts after it (R617). -/
def State.pioRestartHost (s : State) (n : Nat) : State :=
  let t := s.pioRestart n
  match (s.eng n).pcWrite with
  | some (c, pc) => if c = s.cycle then t.put (PIO_ENG_PC_pc n) pc else t
  | none => t

/-- PIO_RESTART (R614). -/
def execPioRestart (mask : Nat) (s : State) : Host.Outcome State Fault Refusal :=
  .next ((s.pioNamed mask).foldl State.pioRestartHost s)

/-- PIO_SYNC: the next steps of the engines named begin in one PIO cycle. Steps are commands here, so this orders the
commands that follow and changes nothing else (R618; notes/assumptions/31.md). -/
def execPioSync (mask : Nat) (s : State) : Host.Outcome State Fault Refusal :=
  .next ((s.pioNamed mask).foldl (fun s _ => s) s)

/-- A write to PIO_ENGn_PC (R615). -/
def State.pioPc (s : State) (n : Nat) (v : Word) : State :=
  let pc := v.toNat % 64
  if !s.pioExists n then s
  else if s.pioLen n ≤ pc then s.pioCause n 0xB6
  else (s.setEng n { (s.eng n).clearShift with pcWrite := some (s.cycle, pc) }).put (PIO_ENG_PC_pc n) pc

/-- PIO_PC_WRITE. -/
def execPioPcWrite (engine : Nat) (value : Word) (s : State) : Host.Outcome State Fault Refusal :=
  .next (s.pioPc engine value)

/-- A write to PIO_ENGn_INJECT (R616). -/
def State.pioInject (s : State) (n : Nat) (w : Word) : State :=
  if !s.pioExists n then s
  else if !pioLegal (leAt (s.pioBody n) 7 1) w.toNat || bits w.toNat 28 4 == 3 then s.pioCause n 0xB0
  else if (s.eng n).inject.isSome then s.pioCause n 0xB5
  else s.setEng n { s.eng n with inject := some w.toNat }

/-- INJECT. -/
def execInject (engine : Nat) (word : Word) (s : State) : Host.Outcome State Fault Refusal := .next (s.pioInject engine word)

/-- A write to PIO_ENGn_TXF (R609). -/
def State.pioTxf (s : State) (n : Nat) (v : Word) : State :=
  let e := s.eng n
  if !s.pioExists n then s
  else if e.tx.length < s.pioTxDepth n then s.setEng n { e with tx := e.tx ++ [v.toNat] }
  else s.pioCause n 0xB2

/-- PIO_TXF_WRITE. -/
def execPioTxfWrite (engine : Nat) (value : Word) (s : State) : Host.Outcome State Fault Refusal :=
  .next (s.pioTxf engine value)

/-- A read of PIO_ENGn_RXF pops the word it returns, or returns 0 with cause 0xB3 (R609). -/
def State.pioRxf (s : State) (n : Nat) : Nat × State :=
  let e := s.eng n
  if !s.pioExists n then (0, s)
  else match e.rx with
    | w :: r => (w, s.setEng n { e with rx := r })
    | [] => (0, s.pioCause n 0xB3)

/-- PIO_RXF_READ. -/
def execPioRxfRead (engine : Nat) (s : State) : Host.Outcome State Fault Refusal := .next (s.pioRxf engine).2

/-- Engine `n` at a reset-level crossing of VDDIO1: stopped, in the state of R614, its FIFOs empty and its pins in reset
state (R622). -/
def State.pioPark (s : State) (n : Nat) : State :=
  let s1 := (s.setPioRun n false).pioRestart n
  let s2 := s1.setEng n { s1.eng n with tx := [], rx := [], inject := none, parked := true }
  (s2.put (PIO_ENG_STAT_cause n) 0xB8).hwSet PIO_IRQ_STAT_halted (2 ^ n)

/-- VDDIO1_RESET_LEVEL: VDDIO1 stands at `mv`, below its reset level (R60, R622). An episode in progress on VDDIO1 goes on
and is logged with 0x81 when it ends: no reset follows this crossing, and the spec ends an episode without 0x81 only for a
supply-failure reset (R62, R653; DEDUCED, notes/assumptions/75.md). -/
def execVddio1ResetLevel (s : State) (mv : Nat := 0) : Host.Outcome State Fault Refusal :=
  .next (if s.portsDead || !s.supply.straps.belowReset .vddio1 mv then s
  else
    (((List.range 8).filter s.pioExists).foldl State.pioPark s).report 0xB8 18 [0xFF])

/-! ### Program changes (R594, R619 to R621) -/

/-- Engine `n` is created from the section in force: the state of R614, empty FIFOs, div, run bit and initial pins (R594,
R620). -/
def State.pioCreate (s : State) (n : Nat) : State :=
  let s1 := (s.pioRestart n).setEng n {}
  let s2 := (s1.put (PIO_ENG_PC_pc n) (leAt (s.pioBody n) 2 1)).put (PIO_ENG_DIV_div n) (leAt (s.pioBody n) 0x0C 2)
  let s3 := s2.pinsInit n
  s3.setPioRun n (s3.pioFlag n 0)

/-- Engine `n` ceases: its flags read 0 and its FIFO contents are lost (R621). -/
def State.pioRemove (s : State) (n : Nat) : State :=
  let s1 := (((s.pioSetFlag n 0 false).pioSetFlag n 1 false).setEng n {}).setPioRun n false
  ((s1.put (PIO_ENG_PC_pc n) 0).put (PIO_ENG_DIV_div n) 0).showPio

/-- The structure has changed engine `n` from the body `old`: code alone, its header, or its existence (R619 to R621). -/
def State.pioChanged (s : State) (n : Nat) (old : Option (List Byte)) : State :=
  match old, s.section? 9 n with
  | none, none => s
  | some _, none => s.pioRemove n
  | some a, some b => if a.take 80 = b.take 80 then s else s.pioCreate n
  | none, some _ => s.pioCreate n

end Sys2Proof.Machine
end

