-- ==== Sys2Proof/Machine/CfgOps.lean ====
section
/-! DEFINITION. The CFG block's commands: staging, the start of a load, its refusal and its end (R119, R121, R141, R709). -/

namespace Sys2Proof.Machine

/-- An overlay waits for its boundary. -/
def State.overlayPending (s : State) : Bool := match s.cfg.waiting with | some i => i.overlay | none => false

/-- A load is in progress, or a checked image waits: for its boundary, or for the boot to take it (0x3B). -/
def State.loadStands (s : State) : Bool := s.cfg.load.isSome || s.cfg.waiting.isSome || s.boot.image.isSome

/-- A start or a staging word is refused with 0x3B or 0x3D (R709). CFG_LOAD_STATUS keeps the section and record it shows
(DESIGN CHOICE, notes/assumptions/79.md). -/
def State.cfgRefuse (s : State) (c : Nat) : State :=
  let s1 := ((s.put CFG_STATUS_refusal c).hwSet CFG_IRQ_STAT_refused).report c 3 [0]
  if s.loadStands then s1 else s1.put CFG_LOAD_STATUS_cause c

/-- The first byte of the staging region and its length (R119). -/
def stageBase : Nat := 0x3C00000
def stageSize : Nat := 0x400000

/-- Bytes are staged at an offset. The bytes staged (0x25) reach to the highest one since reset or since the staging region
was last cleared (DESIGN CHOICE, notes/assumptions/79.md). -/
def State.stageBytes (s : State) (o : Nat) (bs : List Byte) : State :=
  let s0 := s.arcWrite (stageBase + o) bs
  let s1 := s0.withArc { s0.arc with stageWaits := s0.arc.stageWaits + bs.length }
  s1.setCfg { s1.cfg with staged := max s1.cfg.staged (o + bs.length) }

/-- No word can be staged now: the staging address lies past the region, a load is in progress or an overlay is pending. -/
def State.stageRefused (s : State) : Bool :=
  decide (stageSize ≤ 4 * s.get CFG_STAGE_ADDR_addr) || s.cfg.load.isSome || s.overlayPending

/-- A word written to CFG_STAGE_DATA (R119, R709). -/
def State.stageWord (s : State) (v : Word) : State :=
  let o := 4 * s.get CFG_STAGE_ADDR_addr
  if s.stageRefused then s.cfgRefuse 0x3D
  else (s.stageBytes o (leBytes 4 v.toNat)).put CFG_STAGE_ADDR_addr (o / 4 + 1)

/-- STAGE_DATA. -/
def execStageData (value : Word) (s : State) : Host.Outcome State Fault Refusal := .next (s.stageWord value)

/-- The boot has not reached the point at which it waits for a push, and its own load comes first (R163; DESIGN CHOICE,
notes/assumptions/32.md). -/
def State.bootLoads (s : State) : Bool :=
  match s.boot.phase with
  | .waitPush => false
  | .done => false
  | .minimal => false
  | _ => true

/-- A start is refused with 0x3B: a load stands, the boot has one of its own, or an overlay has no structure to change (R141). -/
def State.startRefused (s : State) (overlay : Bool) : Bool :=
  s.loadStands || s.bootLoads || (overlay && (s.minimal || s.get CFG_STATUS_structure == 0))

/-- A load starts: its kind and the boundary selector are fixed (R121, R126, R131, R141). A push restarts the boot watchdog
(R151). -/
def State.startLoad (s : State) (overlay : Bool) : State :=
  if s.startRefused overlay then s.cfgRefuse 0x3B
  else
    let l : Load := { overlay := overlay, target := s.get CFG_OVL_FRAME_target, boot := s.boot.phase == .waitPush }
    let s1 := (s.setCfg { s.cfg with load := some l }).put CFG_LOAD_STATUS_busy 1
    if l.boot then s1.withBoot { s1.boot with watchdog := true } else s1

/-- START_FULL. -/
def execStartFull (s : State) : Host.Outcome State Fault Refusal := .next (s.startLoad false)

/-- START_OVERLAY. -/
def execStartOverlay (s : State) : Host.Outcome State Fault Refusal := .next (s.startLoad true)

end Sys2Proof.Machine
end

