-- ==== Sys2Proof/Machine/Shape.lean ====
section
/-! DEFINITION. What a structure describes, read from its sections: windows, rings, queues, programs, regions, shares; the
byte demands and the admission figures (R135 to R139), and the cut cost (R273). -/

namespace Sys2Proof.Machine

/-- A ring descriptor (R481). -/
structure RingDef where
  flags : Nat
  priority : Nat
  tag : Nat
  spool : Nat
  role : Nat
deriving DecidableEq, Repr

/-- The descriptor that opens 64 bytes. -/
def ringOf (b : List Byte) : RingDef :=
  { flags := leAt b 0 1, priority := leAt b 1 1, tag := leAt b 2 2, spool := leAt b 4 2, role := leAt b 6 1 }

/-- A structure's objects. -/
structure Shape where
  secs : List Section
  wins : List (Nat × Win)
  rings : List (Nat × RingDef)
  progs : List (Nat × List Byte × Plan)
  regions : List (Nat × RegionDef)
deriving DecidableEq, Repr

/-- The section of a type and instance in a list. -/
def findSection (l : List Section) (type inst : Nat) : Option (List Byte) :=
  (l.find? fun x => x.type == type && x.inst == inst).map (·.body)

/-- Its body, empty where absent. -/
def Shape.body (h : Shape) (type inst : Nat) : List Byte := (findSection h.secs type inst).getD []

/-- It is there. -/
def Shape.has (h : Shape) (type inst : Nat) : Bool := (findSection h.secs type inst).isSome

/-- The 64 bytes of the descriptor of ring `n`. -/
def ringBytes (l : List Section) (n : Nat) : List Byte :=
  sliceBytes ((findSection l 4 (n / 64)).getD []) (64 * (n % 64)) 64

/-- The objects that a list of sections describes (R102, R109). -/
def shapeOf (l : List Section) : Shape :=
  let windowsIn (k : Nat) : List (Nat × Win) :=
    match findSection l 3 k with
    | none => []
    | some b =>
      (List.range 32).filterMap fun j =>
        let w := winOf (sliceBytes b (32 * j) 32)
        if bit w.flags 0 then some (32 * k + j, w) else none
  let ringsIn (k : Nat) : List (Nat × RingDef) :=
    match findSection l 4 k with
    | none => []
    | some b =>
      (List.range 64).filterMap fun j =>
        let r := ringOf (sliceBytes b (64 * j) 64)
        if bit r.flags 0 then some (64 * k + j, r) else none
  let arc := (findSection l 0x0A 0).getD []
  { secs := l
    wins := (List.range 32).flatMap windowsIn
    rings := (List.range 4).flatMap ringsIn
    progs := (List.range 16).filterMap fun p => (findSection l 7 p).map fun b => (p, b, planOf b)
    regions := (List.range (min 16 (leAt arc 0 1))).map fun r => (r, regionOf arc r) }

/-- Ring `n` of the structure. -/
def Shape.ring? (h : Shape) (n : Nat) : Option RingDef := (h.rings.find? fun r => r.1 == n).map (·.2)

/-- The windows bound to ring `n`, feeding tap `t`, feeding writer `w`. -/
def Shape.onRing (h : Shape) (n : Nat) : List (Nat × Win) := h.wins.filter fun x => x.2.ring == n
def Shape.onTap (h : Shape) (t : Nat) : List (Nat × Win) := h.wins.filter fun x => x.2.tapOn && x.2.tap == t
def Shape.onWriter (h : Shape) (w : Nat) : List (Nat × Win) := h.wins.filter fun x => x.2.writerOn && x.2.writer == w

/-- The share entry of ring or writer `n` (R112). -/
def Shape.share? (h : Shape) (kind n : Nat) : Option (Bool × Nat) := shareEntry (h.body 5 0) kind n

/-- It is guaranteed. -/
def Shape.guaranteed (h : Shape) (kind n : Nat) : Bool := match h.share? kind n with | some e => e.1 | none => false

/-- The entries of one kind, raw, in their order. -/
def shareWords (b : List Byte) (kind : Nat) : List Nat :=
  let rings := leAt b 2 2
  if kind = 0 then (List.range rings).map fun k => leAt b (8 + 4 * k) 4
  else (List.range (leAt b 4 2)).map fun k => leAt b (8 + 4 * (rings + k)) 4

/-- The guaranteed rings or writers with their shares. -/
def Shape.granted (h : Shape) (kind : Nat) : List (Nat × Nat) :=
  ((shareWords (h.body 5 0) kind).filter fun e => bit e 8).map fun e =>
    (bits e 0 (if kind = 0 then 8 else 6), bits e 16 8)

/-- The frame payload of a window (R461). -/
def Win.payload (w : Win) : Nat := w.outH * w.rowBytes

/-- The TIMING section's minimum frame period, its number of exposures, its minimum row time. -/
def Shape.minFrame (h : Shape) : Nat := leAt (h.body 2 0) 4 4
def Shape.exposures (h : Shape) : Nat := leAt (h.body 2 0) 1 1
def Shape.minRow (h : Shape) : Nat := leAt (h.body 2 0) 2 2

/-! ### Demand (R135 to R139, R587) -/

/-- A rate as a fraction of shares: `n` bytes in `pix` PIX cycles of 5 ns, against 160 000 000 bytes in a second. -/
def shareRate (n pix : Nat) : Nat × Nat := (5 * n, 4 * pix)

/-- The sum of two fractions. -/
def addRate (a b : Nat × Nat) : Nat × Nat := (a.1 * b.2 + b.1 * a.2, a.2 * b.2)

/-- The period, in minimum frame periods, of the frames that a program's taps take. -/
def Shape.runEvery (h : Shape) (p : Plan) : Nat :=
  match p.taps.head? with
  | some t => match (h.onTap t.tap).head? with
    | some x => x.2.div * x.2.tapDiv
    | none => 1
  | none => 1

/-- The demand of a guaranteed ring in shares. -/
def Shape.ringDemand (h : Shape) (n : Nat) : Nat :=
  let up (r : Nat × Nat) : Nat := if r.2 = 0 then 0 else ceilDiv r.1 r.2
  match (h.ring? n).map (·.role) with
  | some 0 =>
    up ((h.onRing n).foldl (fun a x => addRate a (shareRate x.2.frameBytes (h.minFrame * x.2.div))) (0, 1))
  | some 1 =>
    up ((h.progs.filter fun p => p.2.2.ring == n).foldl
      (fun a p => addRate a (shareRate (p.2.2.maxPayload + 20) (h.minFrame * h.runEvery p.2.2))) (0, 1))
  | some 2 => 1
  | some 3 =>
    let b := h.body 0x0B 0
    let e := 1000000 * popCount 2 (leAt b 0 1)
    up (addRate (8 * e, 160000000) (addRate (36 * e, 160000000 * leAt b 2 2) (36000000, 160000000 * leAt b 4 4)))
  | _ => 0

/-- The demand of a guaranteed writer in shares: the frame payload of its window (R139). -/
def Shape.writerDemand (h : Shape) (w : Nat) : Nat :=
  match (h.onWriter w).head? with
  | some x => let r := shareRate x.2.payload (h.minFrame * x.2.div); if r.2 = 0 then 0 else ceilDiv r.1 r.2
  | none => 0

/-- The link capacity of the declared basis, and the shares of the guaranteed rings plus one (R137). -/
def Shape.capacity (h : Shape) : Nat := leAt (h.body 5 0) 0 1 * laneShares (leAt (h.body 5 0) 1 1)
def Shape.linkUsed (h : Shape) : Nat := ((h.granted 0).map (·.2)).sum + 1
def Shape.writerUsed (h : Shape) : Nat := ((h.granted 1).map (·.2)).sum

/-- The bytes of the largest frame of a replay ring, row headers of 8 bytes included (R488). -/
def Shape.replayFrame (h : Shape) (n : Nat) : Nat :=
  ((h.regions.filter fun g => g.2.ring == n).map fun g =>
    match (h.onWriter g.2.writer).head? with
    | some x => x.2.frameBytes + 8 * x.2.outH
    | none => 0).foldl max 0

/-- The bytes that the spool of a guaranteed ring must hold (R488, R587). -/
def Shape.spoolNeed (h : Shape) (n : Nat) : Nat :=
  match (h.ring? n).map (·.role) with
  | some 0 => ((h.onRing n).map fun x => x.2.frameBytes).foldl max 0
  | some 1 => 2 * ((h.progs.filter fun p => p.2.2.ring == n).map fun p => p.2.2.maxPayload + 20).sum
  | some 2 => h.replayFrame n
  | some 3 => 2 * (36 + 8 * leAt (h.body 0x0B 0) 2 2)
  | _ => 0

/-! ### The cut (R273) -/

/-- The cut cost of a window. -/
def Win.cutCost (w : Win) : Nat := ceilDiv w.w 64 + 2

/-- The exposure whose slots serve a window. -/
def Shape.slotExp (h : Shape) (w : Win) : Nat := if w.expSel = 4 then h.exposures - 1 else w.expSel

/-- The window takes the slot of active row `a`: a pair takes the slot of its first row (R266). -/
def Win.takesRow (w : Win) (a : Nat) : Bool :=
  decide (w.y ≤ a) && decide (a < w.y + w.h) && (w.bin != 1 || decide (a % 4 < 2))

/-- The windows served in the slot of active row `a` and exposure `e`: their number and the sum of their costs. -/
def Shape.slotLoad (h : Shape) (e a : Nat) : Nat × Nat :=
  let ws := h.wins.filter fun x => h.slotExp x.2 == e && x.2.takesRow a
  (ws.length, (ws.map fun x => x.2.cutCost).sum)

/-- Every slot that may serve a window, as (row, windows, cost), in ascending row order. -/
def Shape.slotLoads (h : Shape) : List (Nat × Nat × Nat) :=
  (List.range 2048).flatMap fun a => (List.range 4).map fun e => (a, h.slotLoad e a)

/-- The most windows in a slot, the largest cost, and the lowest row that reaches it. -/
def Shape.worstSlot (h : Shape) : Nat × Nat × Nat :=
  h.slotLoads.foldl (fun a x => (max a.1 x.2.1, if a.2.1 < x.2.2 then (x.2.2, x.1) else a.2)) (0, 0, 0)

end Sys2Proof.Machine
end

