-- ==== Sys2Proof/Machine/Check.lean ====
section
/-! DEFINITION. The checks of the loader, in the order of R141: the container, the signature, and the structure that would
result (R103 to R118, R127 to R140, R702). -/

namespace Sys2Proof.Machine

/-- A check that fails: its cause, the type and instance of the section (type 0: none), and the record. -/
structure Flaw where
  cause : Nat
  type : Nat := 0
  inst : Nat := 0
  record : Nat := 0
deriving DecidableEq, Repr

/-- A flaw where a condition holds. -/
def flawIf (c : Bool) (f : Flaw) : Option Flaw := if c then some f else none

/-- The first flaw of some. -/
def firstFlaw (l : List (Option Flaw)) : Option Flaw := l.findSome? id

/-- `n` bytes at `o` are all 0. -/
def zeroAt (b : List Byte) (o n : Nat) : Bool := leAt b o n == 0

/-! ### The container -/

/-- A directory entry (R105). -/
structure DirEntry where
  type : Nat
  inst : Nat
  off : Nat
  len : Nat
  crc : Nat
deriving DecidableEq, Repr

/-- The directory of an image. -/
def dirOf (img : List Byte) : List DirEntry :=
  (List.range (leAt img 6 2)).map fun i =>
    let o := 0x40 + 16 * i
    { type := leAt img o 2, inst := leAt img (o + 2) 2, off := leAt img (o + 4) 4, len := leAt img (o + 8) 4
      crc := leAt img (o + 12) 4 }

/-- The body of an entry. -/
def entryBody (img : List Byte) (e : DirEntry) : List Byte := (img.drop e.off).take e.len

/-- The instances of a section type (R108). -/
def instances : List (Nat × Nat) :=
  [(0x01, 1), (0x02, 1), (0x03, 32), (0x04, 5), (0x05, 1), (0x06, 1), (0x07, 16), (0x08, 16), (0x09, 8), (0x0A, 1),
   (0x0B, 1), (0x0C, 8), (0xF0, 1), (0xFF, 1)]

/-- The header checks before the directory, on the first 64 bytes staged: causes 0x20 to 0x25, and those of 0x26 that
concern the header. -/
def State.headFlaw (s : State) (h : List Byte) : Option Nat :=
  let u o n := leAt h o n
  let total := u 8 4
  let step := (s.reg aSYS_STEP).toNat % 65536
  if u 0 4 ≠ 0x32495350 then some 0x20
  else if crc32c (h.take 0x3C) ≠ u 0x3C 4 then some 0x21
  else if 2 < u 0x18 1 ∨ u 0x19 1 < 2 then some 0x22
  else if step < u 0x10 2 ∨ u 0x12 2 < step then some 0x23
  else if 0x302 < u 0x14 2 ∨ u 0x16 2 < 0x302 then some 0x24
  else if 2 ^ 22 < total ∨ total % 16 ≠ 0 ∨ s.cfg.staged < total then some 0x25
  else if u 0x0C 2 ≠ 64 ∨ 1 < u 4 1 ∨ u 5 1 ≠ 0 ∨ u 6 2 = 0 ∨ 64 < u 6 2 ∨ zeroAt h 0x0E 2 = false ∨ zeroAt h 0x1A 2 = false ∨
      zeroAt h 0x2C 16 = false ∨ u 0x1C 4 = 0 ∨ u 0x1C 4 = 0xFFFFFFFF ∨ (u 4 1 = 0 ∧ u 0x20 4 ≠ 0) ∨ total < 64 + 16 * u 6 2 then
    some 0x26
  else none

/-- The first entry whose body is misaligned, out of order, overlapping or beyond the image (R105, R106). A body may stand at
the offset of an empty one before it (DESIGN CHOICE, notes/assumptions/79.md). -/
def placeFlaw (total : Nat) : Nat → Nat → List DirEntry → Option Nat
  | _, _, [] => none
  | i, from_, e :: r =>
    if e.off % 16 ≠ 0 ∨ e.off < from_ ∨ total < e.off + e.len then some i else placeFlaw total (i + 1) (e.off + e.len) r

/-- The index of the first entry with a property. -/
def entryIdx (d : List DirEntry) (p : DirEntry → Bool) : Option Nat := d.findIdx? p

/-- The first entry that repeats an earlier one's type and instance. -/
def dupIdx (d : List DirEntry) : Option Nat :=
  (List.range d.length).find? fun i =>
    match d[i]? with
    | some e => (d.take i).any fun x => x.type == e.type && x.inst == e.inst
    | none => false

/-- A structure has the sections that a full image requires (R108). A SIGNATURE is not counted here: its absence is cause
0x2B (DESIGN CHOICE, notes/assumptions/79.md). -/
def hasRequired (l : List (Nat × Nat)) : Bool :=
  l.contains (1, 0) && l.contains (2, 0) && l.contains (4, 0) && l.contains (5, 0) && l.any fun x => x.1 == 3

/-- The message of R115: everything before the signature, its own body_crc taken as 0. -/
def signedPart (img : List Byte) (n sig : Nat) : List Byte :=
  let o := 0x40 + 16 * (n - 1) + 12
  let m := img.take sig
  m.take o ++ List.replicate 4 0#8 ++ m.drop (o + 4)

/-- The sections that an image carries, its signature and the empty ones apart. -/
def carriedSections (img : List Byte) (d : List DirEntry) : List Section :=
  (d.filter fun e => e.type != 0xFF && e.len != 0).map fun e => { type := e.type, inst := e.inst, body := entryBody img e }

/-- The sections of the structure that would result (R127). -/
def State.resulting (s : State) (overlay : Bool) (img : List Byte) (d : List DirEntry) : List Section :=
  carriedSections img d ++
    (if overlay then s.cfg.sections.filter fun x => !(d.any fun e => e.type == x.type && e.inst == x.inst) else [])

/-- The checks 0x26 to 0x31: the cause and the index of the entry concerned, 0x3F for none. -/
def State.dirFlaw (s : State) (overlay : Bool) (img : List Byte) (d : List DirEntry) : Option (Nat × Nat) :=
  let total := leAt img 8 4
  let n := d.length
  let full := leAt img 4 1 == 0
  let last := (d.getLast?).getD ⟨0, 0, 0, 0, 0⟩
  let key := (img.drop last.off).take 64
  let num (k : Nat) : Nat := beNat ((img.drop (last.off + 32 * k)).take 32)
  let at_ (c : Nat) (i : Option Nat) : Option (Nat × Nat) := i.map fun j => (c, j)
  let isOne (t : Nat) (e : DirEntry) : Bool := e.type == t
  let hash := s.nvmBytes (1024 * 18) 8
  at_ 0x26 (placeFlaw total 0 (64 + 16 * n) d) <|>
  at_ 0x27 (entryIdx d fun e => crc32c (entryBody img e) != e.crc) <|>
  at_ 0x28 (entryIdx d fun e => !(instances.any fun x => x.1 == e.type && decide (e.inst < x.2))) <|>
  at_ 0x29 (dupIdx d) <|>
  (if full then
    (if hasRequired (d.map fun e => (e.type, e.inst)) then
      at_ 0x2A (entryIdx d fun e => e.len == 0) else some (0x2A, 0x3F))
  else if (s.get CFG_STATUS_structure = 1 ∨ s.get CFG_STATUS_structure = 2) ∧
      hasRequired ((s.resulting true img d).map fun x => (x.type, x.inst)) = false then some (0x2A, 0x3F)
  else none) <|>
  (if last.type = 0xFF ∧ last.len = 128 ∧ last.off + 128 = total then none
   else some (0x2B, (entryIdx d (isOne 0xFF)).getD 0x3F)) <|>
  (if ecdsaOk (num 0) (num 1) (num 2) (num 3) (signedPart img n last.off) then none else some (0x2C, n - 1)) <|>
  (if s.sealOk ∧ sha256 key ≠ hash then some (0x2D, n - 1) else none) <|>
  at_ 0x2E (entryIdx d fun e => e.type == 0xF0 && e.len != 0 && leAt (entryBody img e) 0 2 != 0x302) <|>
  (if full = overlay then some (0x2F, 0x3F)
   else if overlay then at_ 0x2F (entryIdx d fun e => e.type == 1 || e.type == 0xF0) else none) <|>
  (if overlay ∧ leAt img 0x20 4 ≠ s.get CFG_ACTIVE_ID_id then some (0x30, 0x3F) else none) <|>
  (if overlay ∧ key ≠ s.cfg.key then some (0x31, n - 1) else none)

/-! ### Synthesizer plans (R78, R80, R81, R91, R111) -/

/-- Output `j` of a plan runs at `t` half-kilohertz within 300 ppm, and is enabled. -/
def SynPlan.runsAt (p : SynPlan) (j t : Nat) : Bool :=
  match p.outs[j]? with
  | none => false
  | some o =>
    let f := 4 * p.refKhz * p.fbN
    let g := t * p.refDiv * o.1
    o.2.1 && decide ((f - g + (g - f)) * 1000000 ≤ 300 * g)

/-- A plan meets R78, the required frequencies and the limits of R91. -/
def SynPlan.fits (p : SynPlan) (y : Syn) : Bool :=
  let x : Synth := { refDiv := p.refDiv, fbN := p.fbN, refKhz := p.refKhz }
  let ws : List Word := p.outs.map fun o => BitVec.ofNat 32 (o.1 + 2 ^ 16 * b2n o.2.1)
  let f := p.refKhz * p.fbN
  let rates := match y with
    | .a => decide (12 ≤ p.localDiv) && decide (p.localDiv ≤ 16) && p.runsAt 0 400000 && p.runsAt 1 (32000 * p.localDiv) &&
        p.runsAt 3 1600000 && p.runsAt 4 400000 && p.runsAt 6 64000
    | .b => p.runsAt 0 3125000 && p.runsAt 1 1953125
  decide (1 ≤ p.refDiv ∧ p.refDiv ≤ 8 ∧ 16 ≤ p.fbN ∧ p.fbN ≤ 1023 ∧ 5000 * p.refDiv ≤ p.refKhz ∧ p.refKhz ≤ 52000 * p.refDiv ∧
    3200000 * p.refDiv ≤ f ∧ f ≤ 4400000 * p.refDiv) && rates && limitResult y x ws == 0

/-- The plan of a synthesizer is refused (R111). -/
def State.planRefused (s : State) (b : List Byte) (y : Syn) : Bool :=
  let p := planRecord y b
  let m := s.get CLK_REF_MEAS_ref_khz
  let near := decide ((m - p.refKhz + (p.refKhz - m)) * 100 ≤ 6 * p.refKhz)
  !p.fits y || !(near || (s.planInForce y p && (s.synth y).locked))

/-! ### Records: lengths, reserved fields and ranges (0x33) -/

/-- The length that a section's layout requires; none where any length of a kind is right. -/
def bodyLength (x : Section) : Option Nat :=
  let b := x.body
  match x.type with
  | 0x01 => some 64
  | 0x02 => some 32
  | 0x03 => some 1024
  | 0x04 => some (if x.inst = 4 then 1024 else 4096)
  | 0x05 => some (8 + 4 * (leAt b 2 2 + leAt b 4 2))
  | 0x06 => some (0x60 + 4 * leAt b 0 1)
  | 0x07 => some (0x60 + 8 * leAt b 6 2)
  | 0x09 => some (80 + 4 * leAt b 1 1)
  | 0x0A => some (16 + 32 * leAt b 0 1)
  | 0x0B => some 16
  | 0xF0 => some (8 + leAt b 4 4)
  | _ => none

/-- A body of the wrong length. -/
def lengthFlaw (x : Section) : Option Flaw :=
  let wrong := match bodyLength x with
    | some n => x.body.length != n
    | none => if x.type = 8 then decide (x.body.length < 4) else x.body.length % 12 != 0
  flawIf wrong ⟨0x33, x.type, x.inst, 0⟩

/-- SYNTH (04, SYNTH body). -/
def synthFlaw (b : List Byte) : Option Flaw :=
  let out (o : Nat) : Bool := leAt b o 4 != land (leAt b o 4) 0x0FFF03FF
  flawIf (leAt b 0 1 != 0 || leAt b 0x2C 1 != 1 || leAt b 9 1 != 8 || leAt b 0x35 1 != 2 || leAt b 0x34 1 != 0 ||
    !zeroAt b 0x0A 2 || !zeroAt b 0x36 2 || ((List.range 8).any fun j => out (0x0C + 4 * j)) || out 0x38 || out 0x3C) ⟨0x33, 1, 0, 0⟩

/-- The tap that a window feeds yields 2s by 2s blocks (R358). -/
def Win.tapDims (w : Win) : Nat × Nat := (w.outW / 2 ^ (w.tapScale + 1), w.outH / 2 ^ (w.tapScale + 1))

/-- A window's own record (R260, R261, R264, R358). -/
def winBad (w : Win) : Bool :=
  let m := nth [2, 4, 8] w.bin
  let mw := nth [8, 16, 32] w.bin
  let s2 := 2 ^ (w.tapScale + 1)
  decide (2 < w.bin) || decide (4 < w.format) || decide (4 < w.expSel) || decide (3 < w.curve) ||
  (decide (w.format < 3) && w.curve != 0) || w.div == 0 || decide (w.div ≤ w.phase) ||
  decide (63 < w.tap) || decide (3 < w.tapScale) || decide (63 < w.writer) ||
  (if w.tapOn then w.tapDiv == 0 else w.tap != 0 || w.tapScale != 0 || w.tapDiv != 0) || (!w.writerOn && w.writer != 0) ||
  w.x % m != 0 || w.w % mw != 0 || w.w == 0 || w.y % m != 0 || w.h % m != 0 || w.h == 0 ||
  decide (5376 < w.x + w.w) || decide (2048 < w.y + w.h) ||
  (if w.expSel = 4 then w.format == 0 else w.format == 2 || w.format == 3) ||
  (w.tapOn && (w.outW % s2 != 0 || w.outH % s2 != 0))

/-- A window among the others (R269 to R271). -/
def Shape.winClash (h : Shape) (w : Win) : Bool :=
  w.ring == 1 || (w.ring == 0 && !w.tapOn && !w.writerOn) ||
  (w.ring != 0 && (decide (1 < (h.onRing w.ring).length) || (h.progs.any fun p => p.2.2.ring == w.ring) ||
    (match h.ring? w.ring with | some r => r.role != 0 | none => false))) ||
  (w.tapOn && decide (1 < (h.onTap w.tap).length)) || (w.writerOn && decide (1 < (h.onWriter w.writer).length))

/-- The first row of the binned band that a window without 2 by 2 binning takes (R267). -/
def Shape.bandRow (h : Shape) (w : Win) : Option Nat :=
  if w.bin = 1 then none
  else
    let bands := h.wins.filter fun x => x.2.bin == 1 && decide (x.2.y < w.y + w.h) && decide (w.y < x.2.y + x.2.h)
    (bands.map fun x => max w.y x.2.y).min?

/-- The window that breaks R267 first in the order of the rows, of several the lowest: the one that the rejected night window
of chapter 08 names (DEDUCED, notes/assumptions/82.md). -/
def Shape.bandBreaker (h : Shape) : Option Nat :=
  (h.wins.foldl (fun (a : Option (Nat × Nat)) x =>
    match a, h.bandRow x.2 with
    | none, some r => some (r, x.1)
    | some b, some r => if r < b.1 then some (r, x.1) else a
    | _, none => a) none).map (·.2)

/-- R267 on the structure, found in WINDOWS instance `k`. -/
def Shape.bandFlaw (h : Shape) (k : Nat) : Option Flaw :=
  match h.bandBreaker with
  | some n => flawIf (n / 32 == k) ⟨0x33, 3, k, n % 32⟩
  | none => none

/-- WINDOWS instance `k` (R274). Every descriptor keeps its reserved fields at 0. -/
def Shape.windowsFlaw (h : Shape) (k : Nat) (b : List Byte) : Option Flaw :=
  (List.range 32).findSome? fun j =>
    let d := sliceBytes b (32 * j) 32
    let w := winOf d
    flawIf (bits w.flags 4 4 != 0 || !zeroAt d 0x14 12 || (bit w.flags 0 && (winBad w || h.winClash w))) ⟨0x33, 3, k, j⟩

/-- A ring's own record (R481, R483). -/
def ringBad (r : RingDef) : Bool :=
  decide (7 < r.priority) || r.spool % 4 != 0 || decide (r.spool < 20) || decide (24576 < r.spool) || decide (3 < r.role)

/-- RINGS instance `k` below 4; rings 0 and 1 have a check of their own (0x3F). -/
def ringsFlaw (k : Nat) (b : List Byte) : Option Flaw :=
  (List.range 64).findSome? fun j =>
    let d := sliceBytes b (64 * j) 64
    let r := ringOf d
    flawIf (decide (2 ≤ 64 * k + j) && (decide (3 < r.flags) || decide (4095 < r.tag) || !zeroAt d 7 57 ||
      (bit r.flags 0 && ringBad r))) ⟨0x33, 4, k, j⟩

/-- RINGS instance 4 (R507). -/
def queuesFlaw (b : List Byte) : Option Flaw :=
  let d q := sliceBytes b (64 * q) 64
  let there q := bit (leAt (d q) 0 1) 0
  let depth q := leAt (d q) 1 1
  let one := (List.range 16).findSome? fun q =>
    let bad := decide (1 < leAt (d q) 0 1) || !zeroAt (d q) 3 61 ||
      (there q && (depth q == 0 || decide (64 < depth q) || decide (7 < leAt (d q) 2 1)))
    flawIf (bad || (q == 0 && (!there 0 || depth 0 != 32 || leAt (d 0) 2 1 != 0))) ⟨0x33, 4, 4, q⟩
  one <|> flawIf (decide (256 < (((List.range 16).filter there).map depth).sum)) ⟨0x33, 4, 4, 0⟩

/-- SHARES (R112, R483). -/
def sharesFlaw (b : List Byte) : Option Flaw :=
  let rs := shareWords b 0
  let ws := shareWords b 1
  let rec_ (kind k : Nat) (l : List Nat) : Bool :=
    let e := nth l k
    let id := fun x => bits x 0 (if kind = 0 then 8 else 6)
    e != land e (if kind = 0 then 0x00FF01FF else 0x00FF013F) || (!bit e 8 && bits e 16 8 != 0) ||
    (kind == 0 && decide (id e < 2)) || ((l.take k).any fun x => id x == id e)
  flawIf (leAt b 0 1 == 0 || decide (8 < leAt b 0 1) || decide (3 < leAt b 1 1) || decide (256 < leAt b 2 2) ||
    decide (64 < leAt b 4 2) || !zeroAt b 6 2) ⟨0x33, 5, 0, 0⟩ <|>
  ((List.range rs.length).findSome? fun k => flawIf (rec_ 0 k rs) ⟨0x33, 5, 0, k⟩) <|>
  ((List.range ws.length).findSome? fun k => flawIf (rec_ 1 k ws) ⟨0x33, 5, 0, rs.length + k⟩)

/-- The direct routes of an EVENTS body. -/
def routesOf (b : List Byte) : List Nat := (List.range (leAt b 0 1)).map fun k => leAt b (0x60 + 4 * k) 4

/-- EVENTS (R417). -/
def eventsFlaw (b : List Byte) : Option Flaw :=
  let route (w : Nat) : Bool := w != land w 0xFF7F || decide (95 < bits w 0 7) || decide (43 < bits w 8 6) || bits w 14 2 == 3
  flawIf (decide (64 < leAt b 0 1) || !zeroAt b 1 3 || !zeroAt b 5 3 || !zeroAt b 0x14 12 || bits (leAt b 8 12) 0 38 != 0)
    ⟨0x33, 6, 0, 0⟩ <|>
  ((List.range 8).findSome? fun n => flawIf (leAt b (0x20 + 8 * n) 8 / 2 ^ 44 != 0) ⟨0x33, 6, 0, n⟩) <|>
  (((List.range (leAt b 0 1)).zip (routesOf b)).findSome? fun x => flawIf (route x.2) ⟨0x33, 6, 0, x.1⟩)

/-! ### Anchors (R268, R702) -/

/-- The anchor of window `i` under a change: known, or shared by every window that it creates or changes. -/
def State.anchorUnder (s : State) (l : Load) (h : Shape) (i : Nat) : Option Nat :=
  let old := winBytes (fun t k => (findSection s.cfg.sections t k).getD []) i
  let new := winBytes (fun t k => h.body t k) i
  if l.overlay ∧ old = new then some (s.anchor i)
  else if l.overlay ∧ l.target ≠ 0 then
    some (s.sht.frameNo + 1 + (l.target + 2 ^ 32 - (s.sht.frameNo + 1) % 2 ^ 32) % 2 ^ 32)
  else none

/-- Two windows' frames fall on one residue modulo `d`: anchors and phases agree; for every anchor where only one is known. -/
def sameFrames (a1 : Option Nat) (p1 : Nat) (a2 : Option Nat) (p2 d : Nat) : Bool :=
  match a1, a2 with
  | some x, some y => (x + p1) % d == (y + p2) % d
  | none, none => p1 % d == p2 % d
  | _, _ => d == 1

/-! ### Programs, engines, regions, registers -/

/-- The fields of a program's plan (R355). -/
def planBad (b : List Byte) (p : Plan) : Option Nat :=
  let taps := leAt b 1 1
  if bits (leAt b 0 1) 4 4 != 0 || p.arrays.isEmpty || taps == 0 || decide (4 < taps) || decide (p.ring < 2) ||
      decide (p.refRing < 2) || decide (p.maxPayload < 16) || decide (16384 < p.maxPayload) || p.words == 0 ||
      decide (8192 < p.words) || p.scratch % 64 != 0 || p.scratchLen % 64 != 0 || decide (63 < p.tileFirst) ||
      p.tileCount == 0 || decide (64 < p.tileFirst + p.tileCount) || !zeroAt b 0x12 14 then some 0
  else
    (List.range 4).find? fun t =>
      let o := 0x20 + 16 * t
      if taps ≤ t then !zeroAt b o 16 else decide (63 < leAt b o 1) || !zeroAt b (o + 1) 1 || !zeroAt b (o + 6) 2

/-- NPC_PROG instance `k` (R355, R356, R358, R483). -/
def State.progFlaw (s : State) (l : Load) (h : Shape) (k : Nat) (b : List Byte) : Option Flaw :=
  let p := planOf b
  let role n := (h.ring? n).map (·.role)
  let wins := p.taps.filterMap fun t => ((h.onTap t.tap).head?).map fun x => (t, x)
  let first := wins.head?
  let shape := ((List.range p.taps.length).zip p.taps).findSome? fun x =>
    match (h.onTap x.2.tap).head? with
    | some w => flawIf ((x.2.w, x.2.h) != w.2.tapDims) ⟨0x33, 7, k, x.1⟩
    | none => none
  let apart := match first with
    | none => false
    | some (_, i, w) => wins.any fun x =>
        let v := x.2.2
        v.div * v.tapDiv != w.div * w.tapDiv ||
          !sameFrames (s.anchorUnder l h x.2.1) v.phase (s.anchorUnder l h i) w.phase (w.div * w.tapDiv)
  ((planBad b p).map fun t => (⟨0x33, 7, k, t⟩ : Flaw)) <|>
  flawIf (role p.ring != some 1 || (match role p.refRing with | some r => r != 0 | none => false)) ⟨0x33, 7, k, 0⟩ <|>
  shape <|> flawIf apart ⟨0x33, 7, k, 0⟩

/-- The 16-bit pattern masks of an engine. -/
def patternMasks (b : List Byte) : List Nat := (List.range 7).map fun j => leAt b (0x18 + 6 * j) 2

/-- A code word of an engine that the loader rejects (R596). -/
def pioBad (b : List Byte) (pc : Nat) : Bool :=
  let len := leAt b 1 1
  let word i := leAt b (0x50 + 4 * i) 4
  let w := word pc
  let next := bits (word (if pc + 1 < len then pc + 1 else 0)) 28 4
  !pioLegal (leAt b 7 1) w ||
  (match bits w 28 4 with
   | 0x1 => decide (len ≤ bits w 0 6)
   | 0x2 => bits w 8 4 == 1 && decide (15 < leAt b 6 1 + bits w 0 5)
   | 0x3 => next == 3 || next == 1
   | 0x8 => leAt b 0x0A 1 == 0
   | 0x9 => leAt b 0x0A 1 == 16
   | _ => false)

/-- PIO_PROG instance `k` (R592, R595, R596). -/
def Shape.pioFlaw (h : Shape) (k : Nat) (b : List Byte) : Option Flaw :=
  let u o := leAt b o 1
  let own := leAt b 0x0E 2
  let foreign (m : Nat) : Bool := andNot m own != 0
  let others := (List.range k).any fun j => land (leAt (h.body 9 j) 0x0E 2) own != 0
  let lanes := (2 ^ u 5 - 1) * 2 ^ u 4
  let halts := maskOf ((List.range 16).filter fun p => bits (leAt b 0x10 4) (2 * p) 2 != 0)
  flawIf (decide (15 < u 0) || u 1 == 0 || decide (64 < u 1) || decide (u 1 ≤ u 2) || decide (u 1 ≤ u 3) || (!bit (u 0) 3 && u 3 != 0) ||
    decide (16 < u 4 + u 5) || (u 5 == 0 && u 4 != 0) || decide (15 < u 6) || decide (16 < u 7) || decide (15 < u 8) || u 9 == 0 ||
    decide (32 < u 9) || decide (16 < u 0x0A) || u 0x0B != 0 || foreign halts || foreign (leAt b 0x14 2) || foreign (leAt b 0x16 2) ||
    foreign lanes || (patternMasks b).any foreign || others) ⟨0x33, 9, k, 0⟩ <|>
  ((List.range (u 1)).findSome? fun pc => flawIf (pioBad b pc) ⟨0x33, 9, k, pc⟩)

/-- ARCADE (R460, R461, R483). -/
def Shape.arcadeFlaw (h : Shape) (b : List Byte) : Option Flaw :=
  flawIf (leAt b 0 1 == 0 || decide (16 < leAt b 0 1) || !zeroAt b 1 15) ⟨0x33, 0x0A, 0, 0⟩ <|>
  (h.regions.findSome? fun g =>
    let d := g.2
    let o := 16 + 32 * g.1
    let small := match (h.onWriter d.writer).head? with | some x => decide (d.slotBytes < 64 + x.2.payload) | none => false
    flawIf (decide (63 < d.writer) || decide (d.ring < 2) || decide (7 < d.flags) || !zeroAt b (o + 3) 1 || !zeroAt b (o + 20) 12 ||
      d.base % 65536 != 0 || d.length % 65536 != 0 || decide (4095 < d.pre) || decide (4095 < d.post) || d.slotBytes % 4096 != 0 ||
      decide (1 < (h.regions.filter fun e => e.2.writer == d.writer).length) || small || decide (d.length < d.slots * d.slotBytes) ||
      (match h.ring? d.ring with | some r => r.role != 2 | none => false)) ⟨0x33, 0x0A, 0, g.1⟩)

/-- HKA (R583, R483). -/
def Shape.hkaFlaw (h : Shape) (b : List Byte) : Option Flaw :=
  flawIf (decide (3 < leAt b 0 1) || decide (leAt b 1 1 < 2) || leAt b 2 2 == 0 || decide (2046 < leAt b 2 2) || leAt b 4 4 == 0 ||
    decide (1000000 < leAt b 4 4) || !zeroAt b 8 8 || (match h.ring? (leAt b 1 1) with | some r => r.role != 3 | none => false))
    ⟨0x33, 0x0B, 0, 0⟩

/-- The triples of a REGINIT body: address, value, mask. -/
def triplesOf (b : List Byte) : List (Nat × Nat × Nat) :=
  (List.range (b.length / 12)).map fun k => (leAt b (12 * k) 4, leAt b (12 * k + 4) 4, leAt b (12 * k + 8) 4)

/-- A triple that the loader rejects (R113). -/
def tripleBad (t : Nat × Nat × Nat) : Bool :=
  t.1 % 4 != 0 || decide (0x400000 ≤ t.1) || (match regRow t.1 with | some r => andNot t.2.2 r.rw != 0 | none => true)

/-- REGINIT instance `k`. -/
def reginitFlaw (k : Nat) (b : List Byte) : Option Flaw :=
  let ts := triplesOf b
  ((List.range ts.length).zip ts).findSome? fun x => flawIf (tripleBad x.2) ⟨0x33, 0x0C, k, x.1⟩

/-- The record checks of one section. -/
def State.sectionFlaw (s : State) (l : Load) (h : Shape) (x : Section) : Option Flaw :=
  let b := x.body
  match x.type with
  | 0x01 => synthFlaw b
  | 0x02 => flawIf (!zeroAt b 0x0B 1 || bits (leAt b 0x0A 1) 4 4 != 0) ⟨0x33, 2, 0, 0⟩
  | 0x03 => h.windowsFlaw x.inst b <|> h.bandFlaw x.inst
  | 0x04 => if x.inst = 4 then queuesFlaw b else ringsFlaw x.inst b
  | 0x05 => sharesFlaw b
  | 0x06 => eventsFlaw b
  | 0x07 => s.progFlaw l h x.inst b
  | 0x09 => h.pioFlaw x.inst b
  | 0x0A => h.arcadeFlaw b
  | 0x0B => h.hkaFlaw b
  | 0x0C => reginitFlaw x.inst b
  | 0xF0 => flawIf (!zeroAt b 2 2) ⟨0x33, 0xF0, 0, 0⟩
  | _ => none

/-- An elastic window or replay ring whose spool is smaller than its largest frame (R483). -/
def Shape.elasticFlaw (h : Shape) : Option Flaw :=
  h.rings.findSome? fun r =>
    let n := r.1
    flawIf (decide (2 ≤ n) && !h.guaranteed 0 n && (r.2.role == 0 || r.2.role == 2) && decide (1024 * r.2.spool < h.spoolNeed n))
      ⟨0x33, 4, n / 64, n % 64⟩

/-! ### References (0x34, 0x35) -/

/-- The target of a task exists in the structure (R418). -/
def Shape.task (h : Shape) (t : Nat) : Bool :=
  if t = 2 ∨ t = 3 then !h.regions.isEmpty else if t = 4 ∨ t = 5 then h.has 0x0B 0
  else if 18 ≤ t ∧ t ≤ 25 then h.has 9 (t - 18) else true

/-- A window names a ring, a tap's program, a writer's region or an exposure that does not exist (R274). -/
def Shape.winLost (h : Shape) (w : Win) : Bool :=
  (w.ring != 0 && (h.ring? w.ring).isNone) ||
  (w.tapOn && !(h.progs.any fun p => p.2.2.taps.any fun t => t.tap == w.tap)) ||
  (w.writerOn && !(h.regions.any fun g => g.2.writer == w.writer)) ||
  (if w.expSel = 4 then decide (h.exposures < 2) else decide (h.exposures ≤ w.expSel))

/-- A ring that nothing feeds (R483). -/
def Shape.ringIdle (h : Shape) (n : Nat) (r : RingDef) : Bool :=
  decide (2 ≤ n) &&
  (match r.role with
   | 0 => (h.onRing n).isEmpty
   | 1 => !(h.progs.any fun p => p.2.2.ring == n)
   | 2 => !(h.regions.any fun g => g.2.ring == n)
   | 3 => !h.has 0x0B 0 || leAt (h.body 0x0B 0) 1 1 != n
   | _ => false)

/-- Cause 0x34 (R112, R274, R356, R418, R461, R483). -/
def Shape.referenceFlaw (h : Shape) : Option Flaw :=
  let allTaps := h.progs.flatMap fun p => p.2.2.taps.map (·.tap)
  let ev := h.body 6 0
  let rs := shareWords (h.body 5 0) 0
  let ws := shareWords (h.body 5 0) 1
  firstFlaw [
    h.wins.findSome? fun x => flawIf (h.winLost x.2) ⟨0x34, 3, x.1 / 32, x.1 % 32⟩,
    h.rings.findSome? fun x => flawIf (h.ringIdle x.1 x.2) ⟨0x34, 4, x.1 / 64, x.1 % 64⟩,
    ((List.range 8).findSome? fun n =>
      flawIf ((setBitsOf 44 (leAt ev (0x20 + 8 * n) 8)).any fun t => !h.task t) ⟨0x34, 6, 0, n⟩),
    (((List.range (leAt ev 0 1)).zip (routesOf ev)).findSome? fun x => flawIf (!h.task (bits x.2 8 6)) ⟨0x34, 6, 0, x.1⟩),
    h.progs.findSome? fun p =>
      ((List.range p.2.2.taps.length).zip p.2.2.taps).findSome? fun t =>
        flawIf ((h.onTap t.2.tap).isEmpty || decide (1 < allTaps.count t.2.tap)) ⟨0x34, 7, p.1, t.1⟩,
    h.regions.findSome? fun g =>
      flawIf ((h.onWriter g.2.writer).isEmpty || (h.ring? g.2.ring).isNone) ⟨0x34, 0x0A, 0, g.1⟩,
    flawIf (h.has 0x0B 0 && (h.ring? (leAt (h.body 0x0B 0) 1 1)).isNone) ⟨0x34, 0x0B, 0, 0⟩,
    ((List.range rs.length).zip rs).findSome? fun x => flawIf (h.ring? (bits x.2 0 8)).isNone ⟨0x34, 5, 0, x.1⟩,
    ((List.range ws.length).zip ws).findSome? fun x =>
      flawIf (!(h.regions.any fun g => g.2.writer == bits x.2 0 6)) ⟨0x34, 5, 0, rs.length + x.1⟩]

/-- Cause 0x35: a reference video ring whose window does not sample every frame that the program's taps take (R28, R702). -/
def State.refFlaw (s : State) (l : Load) (h : Shape) : Option Flaw :=
  h.progs.findSome? fun p =>
    let bad := match (h.onRing p.2.2.refRing).head? with
      | none => true
      | some (j, v) => p.2.2.taps.any fun t =>
          match (h.onTap t.tap).head? with
          | none => true
          | some (i, w) => w.div * w.tapDiv % v.div != 0 ||
              !sameFrames (s.anchorUnder l h i) w.phase (s.anchorUnder l h j) v.phase v.div
    flawIf bad ⟨0x35, 7, p.1, 0⟩

/-! ### Admission and plans (0x36 to 0x3F) -/

/-- Cause 0x36 (R138, R483). -/
def Shape.linkFlaw (h : Shape) : Option Flaw :=
  ((h.granted 0).findSome? fun e => flawIf (decide (e.2 < h.ringDemand e.1)) ⟨0x36, 5, 0, 0⟩) <|>
  flawIf (decide (h.capacity < h.linkUsed)) ⟨0x36, 5, 0, 0⟩ <|>
  ((h.granted 0).findSome? fun e =>
    match h.ring? e.1 with
    | some r => flawIf (decide (1024 * r.spool < h.spoolNeed e.1)) ⟨0x36, 4, e.1 / 64, e.1 % 64⟩
    | none => none)

/-- Cause 0x37 (R139). -/
def Shape.writerFlaw (h : Shape) : Option Flaw :=
  ((h.granted 1).findSome? fun e => flawIf (decide (e.2 < h.writerDemand e.1)) ⟨0x37, 5, 0, 0⟩) <|>
  flawIf (decide (248 < h.writerUsed)) ⟨0x37, 5, 0, 0⟩

/-- Two stretches share an address. -/
def overlap (a b : Nat × Nat) : Bool := decide (a.1 < b.1 + b.2) && decide (b.1 < a.1 + a.2)

/-- The stretches of tensor memory of a program: its tap buffers and its scratch region. -/
def Plan.stretches (p : Plan) : List (Nat × Nat) :=
  ((p.taps.flatMap fun t => [(t.buf0, t.bytes), (t.buf1, t.bytes)]) ++ [(p.scratch, p.scratchLen)]).filter fun x => x.2 != 0

/-- Some member of a list overlaps a later one. -/
def selfOverlap : List (Nat × Nat) → Bool
  | [] => false
  | a :: r => r.any (overlap a) || selfOverlap r

/-- The spool of rings that the change removes and that have packets to send still counts (16, At the edges; DESIGN CHOICE,
notes/assumptions/35.md). -/
def State.leavingSpool (s : State) (l : Load) (h : Shape) : Nat :=
  if !l.overlay then 0
  else
    (((List.range 256).filter fun n =>
        decide (2 ≤ n) && s.ringExists n && (h.ring? n).isNone && !(s.ring n).spool.isEmpty).map fun n =>
      s.get (RING_DESC1_spool_kib n)).sum

/-- Cause 0x38 (R119, R356, R461, R483). -/
def State.memoryFlaw (s : State) (l : Load) (h : Shape) : Option Flaw :=
  let earlier (k : Nat) := h.progs.filter fun q => decide (q.1 < k)
  firstFlaw [
    h.progs.findSome? fun p =>
      let me := p.2.2.stretches
      let tiles (x : Plan) := (x.tileFirst, x.tileCount)
      flawIf (me.any (fun x => decide (2 ^ 22 < x.1 + x.2)) || selfOverlap me ||
        ((earlier p.1).any fun q => (q.2.2.stretches.any fun x => me.any (overlap x)) ||
          ((q.2.2.arrays.any fun a => p.2.2.arrays.contains a) && overlap (tiles q.2.2) (tiles p.2.2)))) ⟨0x38, 7, p.1, 0⟩,
    flawIf (decide (32768 < (h.progs.map fun p => p.2.2.words).sum)) ⟨0x38, 0, 0, 0⟩,
    (h.secs.filter fun x => x.type == 8).findSome? fun x =>
      let o := leAt x.body 0 4
      let inside := match h.progs.find? fun p => p.1 == x.inst with
        | some p => decide (p.2.2.scratch ≤ o) && decide (o + (x.body.length - 4) ≤ p.2.2.scratch + p.2.2.scratchLen)
        | none => false
      flawIf (!inside) ⟨0x38, 8, x.inst, 0⟩,
    h.regions.findSome? fun g =>
      flawIf (decide (stageBase < g.2.base + g.2.length) ||
        ((h.regions.filter fun e => decide (e.1 < g.1)).any fun e => overlap (e.2.base, e.2.length) (g.2.base, g.2.length)))
        ⟨0x38, 0x0A, 0, g.1⟩,
    flawIf (decide (24576 < (h.rings.map fun r => r.2.spool).sum + s.leavingSpool l h)) ⟨0x38, 4, 0, 0⟩]

/-- The window at which the slot of active row `a` and exposure `e` exceeds a limit of R273, counting in ascending order. -/
def Shape.slotBreaker (h : Shape) (row e a : Nat) : Option Nat :=
  let ws := h.wins.filter fun x => h.slotExp x.2 == e && x.2.takesRow a
  ((List.range ws.length).find? fun n =>
      decide (64 ≤ n) || decide (row < ((ws.take (n + 1)).map fun x => x.2.cutCost).sum)).bind fun n => (ws[n]?).map (·.1)

/-- The limits of R273, at the first slot that exceeds one, in ascending row order (the descriptor named: DEDUCED,
notes/assumptions/82.md). -/
def Shape.slotFlaw (h : Shape) (row : Nat) : Option Flaw :=
  (List.range 2048).findSome? fun a => (List.range 4).findSome? fun e =>
    match h.slotBreaker row e a with
    | some n => some ⟨0x39, 3, n / 32, n % 32⟩
    | none => none

/-- Cause 0x39: the sequence limits of R257 and R258, and the slots of R273. With two global exposures X_1 is taken at its
least, 8. -/
def Shape.timingFlaw (h : Shape) : Option Flaw :=
  let b := h.body 2 0
  let mode := leAt b 0 1
  let n := leAt b 1 1
  let row := leAt b 2 2
  let mfp := leAt b 4 4
  let pe := leAt b 8 1
  let pc := leAt b 9 1
  let q := leAt b 12 4
  let x e := leAt b (0x10 + 4 * e) 4
  let pulse :=
    if mode = 2 then decide (n ≤ pe) || pc == 0 || decide (64 < pc) || decide (q < 24) || decide (0xFFFFFF < q) || decide (mfp < (pc - 1) * q + 8)
    else pe != 0 || pc != 0 || q != 0
  flawIf (decide (2 < mode) || n == 0 || decide ((if mode = 1 then 2 else 4) < n) || decide (row < 256) ||
    decide (mfp < minPeriod mode n row 8) || pulse ||
    ((List.range 4).any fun e => if e < n then decide (x e < 8) || (e != 0 && decide (x (e - 1) < x e)) else x e != 0)) ⟨0x39, 2, 0, 0⟩ <|>
  h.slotFlaw row

/-- The descriptors of rings 0 and 1 (R482). -/
def fixedRing (n : Nat) : List Byte :=
  [3#8, 7#8, BitVec.ofNat 8 n, 0#8] ++ leBytes 2 (if n = 0 then 128 else 64) ++ [BitVec.ofNat 8 (4 + n)] ++ List.replicate 57 0#8

/-- Cause 0x3F (R110, R482). -/
def Shape.fixedFlaw (h : Shape) : Option Flaw :=
  (List.range 2).findSome? fun n => flawIf (ringBytes h.secs n != fixedRing n) ⟨0x3F, 4, 0, n⟩

/-- The checks from 0x32 on, over the structure that would result; a SYNTH body of another length holds no plan, and is a 0x33. -/
def State.contentFlaw (s : State) (l : Load) (secs : List Section) : Option Flaw :=
  let h := shapeOf secs
  firstFlaw [
    flawIf ((h.body 1 0).length == 64 && (s.planRefused (h.body 1 0) .a || s.planRefused (h.body 1 0) .b)) ⟨0x32, 1, 0, 0⟩,
    secs.findSome? lengthFlaw,
    secs.findSome? (s.sectionFlaw l h),
    h.elasticFlaw,
    h.referenceFlaw,
    s.refFlaw l h,
    h.linkFlaw,
    h.writerFlaw,
    s.memoryFlaw l h,
    h.timingFlaw,
    h.fixedFlaw]

/-! ### The whole chain -/

/-- What the checks find: the cause, the section and the record, or the image that may come into force. -/
inductive Checked where
  | reject (cause sec record : Nat)
  | accept (i : Image)
deriving DecidableEq, Repr

/-- The bytes of the staging region that the load concerns. -/
def State.stagedImage (s : State) : List Byte × Nat :=
  let h := s.arcRead stageBase 64
  let total := leAt h 8 4
  (h, if total ≤ 2 ^ 22 then max 64 total else 64)

/-- The words of the image with an uncorrectable error (0x3E). -/
def State.stageBad (s : State) (total : Nat) : List Nat := s.badIn stageBase total

/-- The checks of R141 on the staged bytes; a seal that does not match, and a supervisor that has stopped, come first (R179,
R652). -/
def State.check (s : State) (l : Load) : Checked :=
  let st := s.stagedImage
  if s.sealBad then .reject 0x0E 0x3F 0
  else if s.safe.supervisorDead then .reject 0x88 0x3F 0
  else if !(s.stageBad st.2).isEmpty then .reject 0x3E 0x3F 0
  else
    match s.headFlaw st.1 with
    | some c => .reject c 0x3F 0
    | none =>
      let img := s.arcRead stageBase st.2
      let d := dirOf img
      match s.dirFlaw l.overlay img d with
      | some f => .reject f.1 f.2 0
      | none =>
        let secs := s.resulting l.overlay img d
        match s.contentFlaw l secs with
        | some f => .reject f.cause ((entryIdx d fun e => e.type == f.type && e.inst == f.inst).getD 0x3F) f.record
        | none =>
          let sig := (d.getLast?).getD ⟨0, 0, 0, 0, 0⟩
          .accept { overlay := l.overlay, id := leAt img 0x1C 4, version := leAt img 0x24 4, base := leAt img 0x20 4
                    target := l.target, key := (img.drop sig.off).take 64, sections := secs
                    carried := (carriedSections img d).map fun x => (x.type, x.inst) }

end Sys2Proof.Machine
end

