-- ==== Sys2Proof/Machine/Power.lean ====
section
/-! DEFINITION. Power states: commands, steps with their conditions and refusals, OFF, wake paths and block enables (R624 to
R642). -/

namespace Sys2Proof.Machine

/-- The power sequencer's part replaced. -/
def State.setPwr (s : State) (p : Power) : State := s.withPwr p

/-- The device enters a state: pins, housekeeping and the thermal watch follow (R626, R638, R657). -/
def State.enterPower (s : State) (n : Nat) : State :=
  let s1 := ((s.put PWR_STATUS_state n).showPio).hkCheck
  if n < 3 then (s1.put SAFE_THERMAL_STAT_stale 0).refault else s1

/-- The link is in L2. -/
def State.inL2 (s : State) : Bool := s.linkState == 5 && s.get LNK_STATUS_low == 2

/-- The step that is due is refused: the device stays where it is (R633). -/
def State.pwrRefuse (s : State) (result : Nat) : State :=
  let s1 := (s.setPwr { s.pwr with step := none, wake := none }).put PWR_STATUS_result result
  ((s1.put PWR_STATUS_busy 0).put PWR_STATUS_target s.power).hwSet PWR_IRQ_STAT_refused

/-- The next state on the way to the target; OFF is reached in one step from any state (R630, R631). -/
def nextPower (now target : Nat) : Nat := if target = 0 then 0 else if now < target then now + 1 else now - 1

/-- A replay pass runs. -/
def State.passRuns (s : State) : Bool := s.arc.regions.any fun g => g.2.pass.isSome

/-- What the beginning of a step does, or its refusal (R631 to R633): readouts come to an end, the link is taken to L2, or the
synthesizers start again. -/
def State.stepBegins (s : State) (n : Nat) : State :=
  let s0 := s.setPwr { s.pwr with step := some n, stepStart := s.now }
  match s.power, n with
  | 4, _ => s0.runStop
  | 2, 1 =>
    if s.passRuns then s.pwrRefuse 3
    else if s.linkState = 0 ∨ s.inL2 then s0
    else if !s.pwr.linkL2 then s.pwrRefuse 2
    else
      let s1 := s0.requestLow 2 true
      if s1.link.low.isNone then s1.pwrRefuse 2 else s1
  | 1, 2 =>
    let s1 := if s.minimal && !s.on CLK_STATUS_ref_present then s0 else s0.startSyn .a
    if s1.reg aCLK_SYNB_PLAN = 0#32 ∨ (s.inL2 ∧ !s.link.waking) then s1 else s1.startSyn .b
  | 3, 4 => if s.linkState = 5 then s.pwrRefuse 2 else s0
  | _, _ => s0

/-- The device moves towards its target: nothing while a step is under way, done where it has arrived (R630, R634). -/
def State.pwrGo (s : State) : State :=
  if s.pwr.step.isSome then s
  else if s.power = s.get PWR_STATUS_target then
    ((s.put PWR_STATUS_busy 0).put PWR_STATUS_result 0).hwSet PWR_IRQ_STAT_done
  else (s.put PWR_STATUS_busy 1).stepBegins (nextPower s.power (s.get PWR_STATUS_target))

/-- A target is commanded (R630, R634). -/
def State.pwrTarget (s : State) (t : Nat) : State := (s.put PWR_STATUS_target t).pwrGo

/-- The host's structure is in force, or Minimal Mode: PWR commands act. -/
def State.booted (s : State) : Bool := s.boot.phase == .done || s.boot.phase == .minimal

/-- A write of PWR_CMD (R630 to R635). -/
def State.pwrCommand (s : State) (v : Word) : State :=
  let t := bits v.toNat 0 3
  if !s.booted then s
  else if 4 < t ∨ (t = 0 ∧ bits v.toNat 8 8 ≠ 0x4F) then
    (s.put PWR_STATUS_result 1).hwSet PWR_IRQ_STAT_refused
  else (s.setPwr { s.pwr with linkL2 := bit v.toNat 3 }).pwrTarget t

/-- PWR_CMD. -/
def execPwrCmd (value : Word) (s : State) : Host.Outcome State Fault Refusal := .next (s.pwrCommand value)

/-- A wake path commands STANDBY, or waits for a step to SLEEP to complete (R634, R639). -/
def State.wakeGo (s : State) (src : Nat) : State :=
  let s1 := ((s.put PWR_WAKE_SRC_source src).bumpWrap PWR_WAKE_SRC_count).hwSet PWR_IRQ_STAT_wake
  if s.power = 1 then s1.pwrTarget 2 else s1.setPwr { s1.pwr with wake := some src }

/-- The device stands in SLEEP, or a step to it is under way. -/
def State.sleepish (s : State) : Bool := s.power == 1 || s.pwr.step == some 1

/-- The step under way has completed: the next one, or a wake that came during it (R630, R634). -/
def State.stepDoneAt (s : State) (n : Nat) : State :=
  let s1 := (s.setPwr { s.pwr with step := none, wake := none }).put PWR_LAST_STEP_us (min (2 ^ 32 - 1) (s.usSince s.pwr.stepStart))
  let s2 := s1.enterPower n
  match s.pwr.wake with
  | some _ => s2.pwrTarget 2
  | none => s2.pwrGo

/-- The step from `a` to `n` is under way. -/
def State.stepIs (s : State) (a n : Nat) : Bool := s.power == a && s.pwr.step == some n

/-- STREAM_TO_READY: the readout in progress, or a global frame already integrating, has ended. -/
def execStreamToReady (s : State) : Host.Outcome State Fault Refusal :=
  .next (if s.stepIs 4 3 && !s.sht.reading && s.sht.phase == 0 && !s.sht.accepted then s.stepDoneAt 3 else s)

/-- READY_TO_STANDBY: no compute run is ready or running, and no seed store runs. -/
def execReadyToStandby (s : State) : Host.Outcome State Fault Refusal :=
  .next (
    let runs := s.npc.runs.any fun r => r.phase != .waiting
    let storing := match s.nvm.running with | some (.store _ _ _ _) => true | _ => false
    if s.stepIs 3 2 && !runs && !storing then s.stepDoneAt 2 else s)

/-- STANDBY_TO_SLEEP: the link is in L2 or DISABLED, no pass runs, no NVM command, no load. The time base loses its
synchronisation, and the stop of the synthesizers is no loss of lock (R637). -/
def execStandbyToSleep (s : State) : Host.Outcome State Fault Refusal :=
  .next (
    if !s.stepIs 2 1 then s
    else if s.passRuns then s.pwrRefuse 3
    else if (s.linkState == 0 || s.inL2) && s.nvm.running.isNone && s.cfg.load.isNone then
      ((((s.stopSyn .a).stopSyn .b).put TIME_STATUS_synced 0).refault).stepDoneAt 1
    else s)

/-- SLEEP_TO_STANDBY: SYNA has locked again; without a reference Minimal Mode runs on the boot oscillator (R168). -/
def execSleepToStandby (s : State) : Host.Outcome State Fault Refusal :=
  .next (if s.stepIs 1 2 && (s.clk.a.locked || !s.clk.a.running) then s.stepDoneAt 2 else s)

/-- STANDBY_TO_READY. -/
def execStandbyToReady (s : State) : Host.Outcome State Fault Refusal :=
  .next (if s.stepIs 2 3 then s.stepDoneAt 3 else s)

/-- READY_TO_STREAM: refused with the link in L1 or L2. -/
def execReadyToStream (s : State) : Host.Outcome State Fault Refusal :=
  .next (if s.stepIs 3 4 then (if s.linkState = 5 then s.pwrRefuse 2 else s.stepDoneAt 4) else s)

/-- The device is off: the always-on island, the NVM, the straps and what waits outside are left; a wake from Minimal Mode is
a reset that clears the attempts (R144, R625, R636). -/
def State.powerOff (s : State) : State :=
  let base : State :=
    { cycle := s.cycle, fresh := s.fresh, pending := s.pending, nvm := s.nvm
      supply := { s.supply with episodes := [] }
      boot := { phase := .off, bootNumber := s.boot.bootNumber } }
  let kept := aoRegisters.foldl (fun t r => t.setReg r.1 (BitVec.ofNat 32 (land (s.reg r.1).toNat r.2))) base
  (if s.minimal then kept.put SYS_BOOT_REPORT_attempts 0 else kept).put PWR_STATUS_state 0

/-- ENTER_OFF: no NVM command runs; a load in progress ends with the state that held it. -/
def execEnterOff (s : State) : Host.Outcome State Fault Refusal :=
  .next (if s.pwr.step = some 0 ∧ s.nvm.running = none then s.powerOff else s)

/-! ### Wake paths (R639, R640) -/

/-- A wake in OFF boots the device with reset source 6 (R143, R636). -/
def State.wakeBoot (s : State) (src : Nat) : State :=
  let s1 := (s.put PWR_WAKE_SRC_source src).bumpWrap PWR_WAKE_SRC_count
  (s1.resetTo 6 0).hwSet PWR_IRQ_STAT_wake

/-- TRIG_WAKE: an armed edge on a TRIG pin. -/
def execTrigWake (pin : Nat) (rising : Bool) (s : State) : Host.Outcome State Fault Refusal :=
  .next (
    if pin < 4 ∧ s.sleepish ∧ bit (s.get PWR_WAKE_trig_en) pin ∧ bit (s.get PWR_WAKE_trig_falling) pin = !rising then
      s.wakeGo (pin + 1)
    else s)

/-- SCSB_WAKE: SCSB held low for 10 us in OFF, with VDDIO0 present. -/
def execScsbWake (s : State) : Host.Outcome State Fault Refusal :=
  .next (if s.boot.phase = .off ∧ s.on PWR_WAKE_scsb_en then s.wakeBoot 6 else s)

/-- WAKE_PATTERN: out of OFF or SLEEP where armed, SLEEP and L2 together; else the link alone (R545, R639, R640). -/
def execWakePattern (s : State) : Host.Outcome State Fault Refusal :=
  .next (
    if s.boot.phase = .off then (if s.on PWR_WAKE_bc_en then s.wakeBoot 5 else s)
    else if s.sleepish then
      if s.on PWR_WAKE_bc_en then
        (if s.inL2 then s.setLink { s.link with waking := true } else s).wakeGo 5
      else s
    else s.wakeLink)

/-! ### Block enables (R642) -/

/-- A write of PWR_BLOCK_EN. -/
def State.blockEnables (s : State) (v : Word) : State := ((s.plainWrite aPWR_BLOCK_EN v).hkCheck).showPio

/-- BLOCK_ENABLE_WRITE. -/
def execBlockEnableWrite (value : Word) (s : State) : Host.Outcome State Fault Refusal := .next (s.blockEnables value)

/-! ### link_l2 (R632) -/

/-- PM_DRAIN_TIMEOUT: the replay buffer has not emptied within 1 ms (R543, R632). A SLEEP step that asked for L2 is refused. -/
def execPmDrainTimeout (s : State) : Host.Outcome State Fault Refusal :=
  .next (
    match s.link.low with
    | none => s
    | some l => if l.power && l.phase == 0 then s.lowTimeout.pwrRefuse 2 else s.lowTimeout)

end Sys2Proof.Machine
end

