-- ==== Sys2Proof/Machine/Sync.lean ====
section
/-! DEFINITION. The SYNC bus and the direct trigger paths (R244, R245, R445 to R453). -/

namespace Sys2Proof.Machine

/-- The SYNC bus part of Crossroads replaced. -/
def State.setSync (s : State) (y : Sync) : State := s.withEvf { s.evf with sync := y }

/-- The SYNC mode; 3 acts as 0 (R445). -/
def State.syncMode (s : State) : Nat := s.get EVF_SYNC_CFG_mode % 3

/-- The unit drives SYNC_ARM low (R445, R447). -/
def State.drivesArm (s : State) : Bool := s.syncMode == 1 && s.on EVF_SYNC_CTRL_arm

/-- The unit is disarmed, and its direct path may pass an edge again once it is armed (R449). -/
def State.disarm (s : State) : State := (s.put EVF_SYNC_STAT_armed 0).setSync { s.evf.sync with passed := false }

/-- An edge of SYNC_ARM at the ball, stamped `st`: source 28 is 1 while the line is low (R413), and a unit that samples it
high is disarmed (R446). -/
def State.armEdge (s : State) (rising : Bool) (st : Nat) : State :=
  let s1 := s.setLevel 28 (!rising) st
  let s2 := s1.setSync { s1.evf.sync with armLow := !rising }
  if rising then s2.disarm else s2

/-- SYNC_ARMING: SYNC_ARM has been sampled low for 20 PIX cycles, which arms a unit in mode 1, or is sampled high (R445 to
R447). Where the fall was not given as an edge of its own (TRIGGER_PIN_EDGE, pin 5), it lies 20 PIX cycles back. -/
def execSyncArming (low : Bool) (eighth : Nat) (s : State) : Host.Outcome State Fault Refusal :=
  .next (if low then
    let s1 := s.armEdge false ((s.pinStamp eighth + 2 ^ 64 - 20 * s.pixPeriod / 2 ^ 8) % 2 ^ 64)
    if s.syncMode == 1 then s1.put EVF_SYNC_STAT_armed 1 else s1
  else s.armEdge true (s.pinStamp eighth))

/-- A write of EVF_SYNC_CFG: outside mode 1 the unit drives neither line and is not armed (R445). -/
def State.syncCfgWrite (s : State) (v : Word) : State :=
  let s1 := s.plainWrite aEVF_SYNC_CFG v
  if s1.syncMode = 1 then s1 else (s1.put EVF_SYNC_STAT_driving 0).disarm

/-- A command that disarms the unit: SYNC_ARM is sampled high (R446). -/
def disarms (c : Instr) : Bool :=
  match c with
  | .syncArming low _ => !low
  | .triggerPinEdge pin rising _ _ => pin == 5 && rising
  | _ => false

/-- A fire request (R448). Arming is evaluated first in a cycle: a request in the cycle in which the unit is disarmed is
refused (14, At the edges). -/
def State.fireRequest (s : State) : State :=
  if s.syncMode == 1 && s.on EVF_SYNC_STAT_armed && !s.evf.sync.fireLow && !s.on EVF_SYNC_STAT_driving &&
      !s.restOfCycle.any disarms then
    s.put EVF_SYNC_STAT_driving 1
  else (s.bump EVF_SYNC_STAT_refused).hwSet EVF_IRQ_STAT_sync_refused

/-- A write of EVF_SYNC_CTRL: arm is stored, fire asks for a pulse (R447, R448). -/
def State.syncCtrlWrite (s : State) (v : Word) : State :=
  let s1 := s.plainWrite aEVF_SYNC_CTRL v
  if bit v.toNat 1 then s1.fireRequest else s1

/-- DRIVE_SYNC_FIRE: task 14, or EVF_SYNC_CTRL.fire (R448). -/
def execDriveSyncFire (byTask : Bool) (s : State) : Host.Outcome State Fault Refusal :=
  .next (if byTask then s.serve 14 fun s _ _ => s.fireRequest else s.fireRequest)

/-- FIRE_PULSE_END: the unit releases SYNC_FIRE (R448). -/
def execFirePulseEnd (s : State) : Host.Outcome State Fault Refusal := .next (s.put EVF_SYNC_STAT_driving 0)

/-- DRIVE_SYNC_ARM: task 15 sets arm (R447). -/
def execDriveSyncArm (s : State) : Host.Outcome State Fault Refusal :=
  .next (s.serve 15 fun s _ _ => s.put EVF_SYNC_CTRL_arm 1)

/-- RELEASE_SYNC_ARM: task 16 clears arm (R447). -/
def execReleaseSyncArm (s : State) : Host.Outcome State Fault Refusal :=
  .next (s.serve 16 fun s _ _ => s.put EVF_SYNC_CTRL_arm 0)

/-- AUTO_RELEASE: 1 µs after a pass, auto_release clears arm (R447). -/
def execAutoRelease (s : State) : Host.Outcome State Fault Refusal :=
  .next (if s.evf.sync.autoRelease then
    (s.put EVF_SYNC_CTRL_arm 0).setSync { s.evf.sync with autoRelease := false }
  else s)

/-! ### The direct path -/

/-- EVF_FIRE_DELAYi. -/
def State.fireDelay (s : State) (i : Nat) : Nat := s.get (EVF_FIRE_DELAY_delay i)

/-- The timing generator takes this edge (R244): its pin and sense are the selected ones. -/
def State.selects (s : State) (pin : Nat) (rising : Bool) : Bool :=
  s.get SHT_TRIG_CFG_src == pin && s.on SHT_TRIG_CFG_falling == !rising

/-- A release is due: a selected edge reaches the timing generator (R245, R450). -/
def State.release (s : State) (r : Release) (since : Nat) : State :=
  if s.selects r.pin r.rising then s.trigger since s.pinLaunch true false else s

/-- A release waits for its delay (R450). -/
def State.releaseLater (s : State) (r : Release) : State :=
  s.setSync { s.evf.sync with releases := s.evf.sync.releases ++ [r] }

/-- The direct path passes this edge of SYNC_FIRE: in mode 0 every edge that SHT_TRIG_CFG selects, in mode 1 a falling edge
while the unit is armed, once unless burst is 1 (R445, R449). -/
def State.passesEdge (s : State) (rising : Bool) : Bool :=
  match s.syncMode with
  | 0 => s.selects 4 rising
  | 1 => !rising && s.on EVF_SYNC_STAT_armed && (!s.evf.sync.passed || s.on EVF_SYNC_CFG_burst)
  | _ => false

/-- A fire that the direct path passes is counted and raised; in mode 1 it closes the path and starts auto_release (R447,
R449). -/
def State.countFire (s : State) : State :=
  let one := s.syncMode == 1
  let s1 := (s.bumpWrap EVF_SYNC_STAT_fires).hwSet EVF_IRQ_STAT_sync_fired
  let y := s1.evf.sync
  s1.setSync { y with
    passed := y.passed || one, autoRelease := y.autoRelease || (one && s.on EVF_SYNC_CFG_auto_release) }

/-- A falling edge of SYNC_FIRE in eighth `e` of a PIX cycle (R440, R445, R449 to R452). With comp at 1 the width of the
pulse is measured, and what the path passes waits for it. -/
def State.fireFall (s : State) (e : Nat) : State :=
  let st := s.pinStamp e
  let pass := s.passesEdge false
  let s1 := ((s.setLevel 29 true st).put EVF_SYNC_STAT_phase e).put64 aEVF_SYNC_STAMP_LO aEVF_SYNC_STAMP_HI st
  let s2 := s1.setSync { s1.evf.sync with fireLow := true }
  let s3 := if pass then s2.countFire else s2
  if s.on EVF_SYNC_CFG_comp then s3.setSync { s3.evf.sync with measuring := some st, fallPassed := pass }
  else if pass then s3.releaseLater { pin := 4, rising := false, stamp := st, delay := s.fireDelay 0 }
  else s3

/-- The id decoded from a fire pulse `w` PIX cycles wide (R451). -/
def fireId (w : Nat) : Nat := min 7 ((w + 25) / 50 - 1)

/-- The delay of a fire decoded to id `i`: a value below 480 acts as 480 (R451). -/
def State.firerDelay (s : State) (i : Nat) : Nat := max 480 (s.fireDelay i)

/-- The width of the pulse in hand is known, `w` PIX cycles: its id shows, and the fall that the path passed is released
after the delay of that id (R450, R451). -/
def State.fireDecoded (s : State) (w : Nat) : State :=
  match s.evf.sync.measuring with
  | none => s
  | some fall =>
    let i := fireId w
    let s1 := (s.put EVF_SYNC_STAT_last_id i).setSync { s.evf.sync with measuring := none, fallPassed := false }
    if s.evf.sync.fallPassed then
      s1.releaseLater { pin := 4, rising := false, stamp := fall, delay := s.firerDelay i }
    else s1

/-- A rising edge of SYNC_FIRE, `w` PIX cycles after the falling one, in eighth `e` (R445, R450, R451). A rising edge that
the path itself passes takes the delay of the decoded id with comp at 1; after a pulse too long to decode it releases
nothing. -/
def State.fireRise (s : State) (w e : Nat) : State :=
  let st := s.pinStamp e
  let comp := s.on EVF_SYNC_CFG_comp
  let pass := s.passesEdge true && (!comp || s.evf.sync.measuring.isSome)
  let s1 := s.setLevel 29 false st
  let s2 := (s1.setSync { s1.evf.sync with fireLow := false }).fireDecoded w
  if pass then
    s2.countFire.releaseLater
      { pin := 4, rising := true, stamp := st, delay := if comp then s.firerDelay (fireId w) else s.fireDelay 0 }
  else s2

/-- SYNC_FIRE_EDGE. -/
def execSyncFireEdge (eighth : Nat) (s : State) : Host.Outcome State Fault Refusal := .next (s.fireFall eighth)

/-- SYNC_FIRE_RISE. -/
def execSyncFireRise (width eighth : Nat) (s : State) : Host.Outcome State Fault Refusal :=
  .next (s.fireRise width eighth)

/-- BAD_WIDTH_TIMEOUT: 2.2 µs after a fall without a rise nothing is released, and it is counted (R451). -/
def execBadWidthTimeout (s : State) : Host.Outcome State Fault Refusal :=
  .next (match s.evf.sync.measuring with
  | none => s
  | some _ => (s.setSync { s.evf.sync with measuring := none, fallPassed := false }).bump EVF_SYNC_STAT_bad_width)

/-- COMPENSATED_RELEASE: the delay of the oldest release has run, `since` PIX cycles after the last readout start
(R450). -/
def execCompensatedRelease (since : Nat) (s : State) : Host.Outcome State Fault Refusal :=
  .next (match s.evf.sync.releases with
  | [] => s
  | r :: rs => (s.setSync { s.evf.sync with releases := rs }).release r since)

/-- An edge of TRIG`pin`: its source takes the level, and a selected edge starts a frame at once where EVF_FIRE_DELAY0
is 0, else after that delay (R244, R245, R440, R450). -/
def State.trigEdge (s : State) (pin : Nat) (rising : Bool) (e since : Nat) : State :=
  let st := s.pinStamp e
  let s1 := s.setLevel (24 + pin) rising st
  if !s.selects pin rising then s1
  else
    let r : Release := { pin := pin, rising := rising, stamp := st, delay := s.fireDelay 0 }
    if r.delay = 0 then s1.release r since else s1.releaseLater r

/-- TRIGGER_PIN_EDGE: an edge of TRIG0 to TRIG3, or of SYNC_FIRE (pin 4) or SYNC_ARM (pin 5), in eighth `eighth`, with the integration start
or first shutter `since` PIX cycles after the last readout start (R245). The rise of a pulse whose width is being
measured is SYNC_FIRE_RISE. -/
def execTriggerPinEdge (pin : Nat) (rising : Bool) (eighth since : Nat) (s : State) :
    Host.Outcome State Fault Refusal :=
  .next (if pin < 4 then s.trigEdge pin rising (eighth % 8) since
  else if pin = 4 ∧ !(rising && s.evf.sync.measuring.isSome) then
    let s1 := if rising then s.fireRise 0 (eighth % 8) else s.fireFall (eighth % 8)
    match s1.evf.sync.releases.getLast? with
    | some r =>
      if s.evf.sync.releases.length < s1.evf.sync.releases.length ∧ r.delay = 0 then
        (s1.setSync { s1.evf.sync with releases := s1.evf.sync.releases.dropLast }).release r since
      else s1
    | none => s1
  else if pin = 5 then s.armEdge rising (s.pinStamp eighth)
  else s)

/-- START_A_GLOBAL_EXPOSURE: task 0, where SHT_TRIG_CFG selects the tasks; ignored and counted in a rolling mode (R248,
R708). -/
def execStartAGlobalExposure (since : Nat) (s : State) : Host.Outcome State Fault Refusal :=
  .next (s.serve 0 fun s _ forced => if s.get SHT_TRIG_CFG_src = 5 then s.trigger since s.taskLaunch false forced else s)

/-- START_A_FRAME: task 1, in every mode (R248, R708). -/
def execStartAFrame (since : Nat) (s : State) : Host.Outcome State Fault Refusal :=
  .next (s.serve 1 fun s _ forced => if s.get SHT_TRIG_CFG_src = 5 then s.trigger since s.taskLaunch true forced else s)

end Sys2Proof.Machine
end

