-- ==== Sys2Proof/Machine/RegWrite.lean ====
section
/-! DEFINITION. A write of one word of the register space or the tensor memory window, block by block: what it stores, what it
starts, and the target block's own refusal (R5 to R9, R194, R704). The checks of the control ports stand in Ports.lean. -/

namespace Sys2Proof.Machine

/-- The index of the register at `a` among `n` registers of one kind, `stride` bytes apart from `base`. -/
def idxAt (base stride n a : Nat) : Option Nat :=
  if base ≤ a ∧ (a - base) % stride = 0 ∧ (a - base) / stride < n then some ((a - base) / stride) else none

/-- A write that its block does not refuse. -/
def accepted (s : State) : State × Nat := (s, 0)

/-- CLK (R88, R92, R649). -/
def State.writeClk (s : State) (a : Nat) (v : Word) : State × Nat :=
  accepted (
    if a = aCLK_SYNA_CTRL then s.synCtrlWrite .a v
    else if a = aCLK_SYNB_CTRL then s.synCtrlWrite .b v
    else if (synOf a).isSome then (s.plainWrite a v).voteWrite a
    else s.plainWrite a v)

/-- PWR (R630, R642). -/
def State.writePwr (s : State) (a : Nat) (v : Word) : State × Nat :=
  accepted (
    if a = aPWR_CMD then s.pwrCommand v
    else if a = aPWR_BLOCK_EN then s.blockEnables v
    else s.plainWrite a v)

/-- CFG but for CFG_LOAD_CTRL (R119, R709). -/
def State.writeCfg (s : State) (a : Nat) (v : Word) : State × Nat :=
  if a = aCFG_STAGE_DATA then (s.stageWord v, if s.stageRefused then 0x3D else 0) else accepted (s.plainWrite a v)

/-- NVM (R173, R175). -/
def State.writeNvm (s : State) (a : Nat) (v : Word) : State × Nat :=
  if a = aNVM_CMD then (s.nvmCmd (v.toNat % 8), s.nvmRefusal (v.toNat % 8))
  else accepted (if a = aNVM_UNLOCK then (if v = 0x6A53#32 then s.put NVM_STATUS_unlocked 1 else s) else s.plainWrite a v)

/-- SHT (R231, R254, R256). -/
def State.writeSht (s : State) (a : Nat) (v : Word) : State × Nat :=
  accepted (
    if a = aSHT_CTRL then s.shtCtrlWrite v
    else match idxAt (aSHT_EXP 0) 4 4 a with
      | some e => s.expWrite e v
      | none => s.plainWrite a v)

/-- WIN: bits of windows that do not exist ignore writes. -/
def State.writeWin (s : State) (a : Nat) (v : Word) : State × Nat :=
  accepted (
    match idxAt (aWIN_ENABLE 0) 4 32 a with
    | some k => s.plainWrite a (BitVec.ofNat 32 (maskOf ((setBitsOf 32 v.toNat).filter fun i => (s.window? (32 * k + i)).isSome)))
    | none => s.plainWrite a v)

/-- RDO (R292). -/
def State.writeRdo (s : State) (a : Nat) (v : Word) : State × Nat :=
  if a = aRDO_RETIRE then
    let t := s.hostRetire v
    (t, if bits v.toNat 24 8 = 0xD7 ∧ t.get RDO_RETIRE_RESULT_cause = 0x64 then 0x64 else 0)
  else accepted (s.plainWrite a v)

/-- CAL (R314). -/
def State.writeCal (s : State) (a : Nat) (v : Word) : State × Nat :=
  accepted (if a = aCAL_SEL then s.calSel v else s.plainWrite a v)

/-- NPC: bits of programs that do not exist ignore writes. -/
def State.writeNpc (s : State) (a : Nat) (v : Word) : State × Nat :=
  accepted (
    if a = aNPC_PROG_EN then
      s.plainWrite a (BitVec.ofNat 32 (maskOf ((setBitsOf 16 v.toNat).filter fun p => s.programs.contains p)))
    else if a = aNPC_DBG then s.npcDbgWrite v
    else s.plainWrite a v)

/-- EVF (R413, R422, R423, R426, R445 to R448, R453). -/
def State.writeEvf (s : State) (p : Port) (a : Nat) (v : Word) : State × Nat :=
  accepted (
    if a = aEVF_SW then s.softEvents v
    else if a = aEVF_TASK_FIRE_LO then s.taskFire p 0 v
    else if a = aEVF_TASK_FIRE_HI then s.taskFire p 32 (v &&& 0xFFFF#32)
    else if a = aEVF_SYNC_CFG then s.syncCfgWrite v
    else if a = aEVF_SYNC_CTRL then s.syncCtrlWrite v
    else if isFireDelay a then (s.plainWrite a v).voteWrite a
    else match idxAt (aEVF_TU_CTRL 0) 4 128 a with
      | some k =>
        if k % 16 = 0 then s.unitCtrlWrite (k / 16) v
        else if k % 16 ≤ 4 then s.unitConfigWrite (k / 16) a v
        else s.plainWrite a v
      | none => s.plainWrite a v)

/-- TIME (R431, R435). -/
def State.writeTime (s : State) (a : Nat) (v : Word) : State × Nat :=
  accepted (
    if a = aTIME_INC then s.setInc v.toNat
    else if a = aTIME_CTRL then s.timeCtrlWrite v
    else s.plainWrite a v)

/-- ARC (R465 to R475). -/
def State.writeArc (s : State) (a : Nat) (v : Word) : State × Nat :=
  if a = aARC_CMD then
    let op := bits v.toNat 4 4
    let t := s.arcCmd op (v.toNat % 16)
    (t, if op = 0 then 0 else t.get ARC_CMD_RESULT_cause)
  else accepted (if a = aARC_HOST_ADDR then s.hostFetch v else s.plainWrite a v)

/-- RING: a ring that does not exist ignores writes, and one that carries no window or replay frames keeps its enable (R492). -/
def State.writeRing (s : State) (a : Nat) (v : Word) : State × Nat :=
  accepted (
    match idxAt (aRING_CTRL 0) 64 256 a with
    | some n =>
      let role := s.get (RING_DESC1_role n)
      if !s.ringExists n then s
      else if 2 ≤ n ∧ (role = 0 ∨ role = 3) then s.plainWrite a v
      else s.put (RING_CTRL_fill_irq n) (bits v.toNat 16 16)
    | none => s.plainWrite a v)

/-- LNK (R510, R539, R562). -/
def State.writeLnk (s : State) (a : Nat) (v : Word) : State × Nat :=
  if a = aLNK_CTRL then accepted (s.linkCtrlWrite v)
  else if a = aLNK_POLARITY then (if s.linkState ≤ 1 then accepted (s.plainWrite a v) else (s.linkCause 0x5F 0, 0x5F))
  else if a = aLNK_LANE_CTRL then
    accepted (if bit v.toNat 8 then (s.plainWrite a v).restoreRings else s.plainWrite a v)
  else accepted (s.plainWrite a v)

/-- HKA (R572, R573, R577, R582). -/
def State.writeHka (s : State) (a : Nat) (v : Word) : State × Nat :=
  match idxAt (aHKA_CORE_CFG 0) 16 2 a, idxAt (aHKA_CORE_CTRL 0) 16 2 a, idxAt (aHKA_WIN_CFG 0) 16 8 a with
  | some c, _, _ => accepted (s.hkaCfgWrite c v)
  | _, some c, _ =>
    let t := s.hkaCoreCtrl c v
    let turned := s.hkMode c = 0 ∨ s.on HKA_CTRL_en = false ∨ s.hkRuns = false
    (t, if bit v.toNat 0 ∧ turned then 0xC0 else 0)
  | _, _, some w => accepted (s.hkaWinWrite w v)
  | _, _, _ => accepted (if a = aHKA_CTRL then s.hkaCtrlWrite v else s.plainWrite a v)

/-- PIO_CTRL: the run bits, then restarts; sync concerns timing alone (R613, R614, R618, R622). -/
def State.pioCtrlWrite (s : State) (v : Word) : State × Nat :=
  let on := (setBitsOf 8 v.toNat).filter fun n => s.pioExists n && !s.pioOn n
  let s1 := s.pioRunAll (v.toNat % 256)
  ((s1.pioNamed (bits v.toNat 8 8)).foldl State.pioRestartHost s1, if s.vddio1Low && !on.isEmpty then 0xB6 else 0)

/-- PIO (R609, R613 to R618). -/
def State.writePio (s : State) (a : Nat) (v : Word) : State × Nat :=
  match idxAt (aPIO_ENG_PC 0) (aPIO_ENG_PC 1 - aPIO_ENG_PC 0) 8 a, idxAt (aPIO_ENG_INJECT 0) (aPIO_ENG_PC 1 - aPIO_ENG_PC 0) 8 a,
      idxAt (aPIO_ENG_TXF 0) (aPIO_ENG_PC 1 - aPIO_ENG_PC 0) 8 a, idxAt (aPIO_ENG_DIV 0) (aPIO_ENG_PC 1 - aPIO_ENG_PC 0) 8 a with
  | some n, _, _, _ => (s.pioPc n v, if s.pioExists n && decide (s.pioLen n ≤ v.toNat % 64) then 0xB6 else 0)
  | _, some n, _, _ =>
    let bad := !pioLegal (leAt (s.pioBody n) 7 1) v.toNat || bits v.toNat 28 4 == 3
    (s.pioInject n v,
      if !s.pioExists n then 0 else if bad then 0xB0 else if (s.eng n).inject.isSome then 0xB5 else 0)
  | _, _, some n, _ => (s.pioTxf n v, if s.pioExists n && decide (s.pioTxDepth n ≤ (s.eng n).tx.length) then 0xB2 else 0)
  | _, _, _, some n => accepted (if s.pioExists n then s.plainWrite a v else s)
  | _, _, _, _ => if a = aPIO_CTRL then s.pioCtrlWrite v else accepted (s.plainWrite a v)

/-- SAFE_FAULT_STAT: a persistent bit is set again in every cycle while its condition holds, so a write does not clear it
(R15, R644). -/
def State.faultStatWrite (s : State) (v : Word) : State :=
  ((s.hwSet SAFE_FAULT_STAT_fault (bits s.faultConditions 0 8)).hwSet SAFE_FAULT_STAT_warn (bits s.faultConditions 16 6)).plainWrite
    aSAFE_FAULT_STAT v |>.showLevel

/-- SAFE (R644, R645, R657, R659, R660, R665). -/
def State.writeSafe (s : State) (p : Port) (a : Nat) (v : Word) : State × Nat :=
  accepted (
    if a = aSAFE_FAULT_STAT then s.faultStatWrite v
    else if a = aSAFE_FAULT_EN then (s.plainWrite a v).showLevel
    else if a = aSAFE_FAULTB then s.faultTest (bit v.toNat 8)
    else if a = aSAFE_THERMAL then (s.plainWrite a v).thermalLook s.thermalCodes
    else if a = aSAFE_LOG_CFG then (s.plainWrite a v).logFlush
    else if a = aSAFE_LOG_SW then s.softEntry v.toNat p.num
    else s.plainWrite a v)

/-- CNT (R662 to R664); edge 3 is refused. -/
def State.writeCnt (s : State) (a : Nat) (v : Word) : State × Nat :=
  match idxAt (aCNT_CFG 0) 4 32 a with
  | some _ => if bits v.toNat 8 2 = 3 then (s, 0x96) else accepted (s.plainWrite a v)
  | none =>
    accepted (
      if a = aCNT_CTRL then (if bit v.toNat 0 then s.snapshot else s)
      else if a = aCNT_CLEAR then s.clearCounters v.toNat
      else s.plainWrite a v)

/-- The tensor memory window. -/
def tensorBase : Nat := 0x400000

/-- One word is written through a port; the cause of its block where that refuses it, else 0 (R704). An address at which no
register is defined ignores the write (R194). -/
def State.regWrite (s : State) (p : Port) (a : Nat) (v : Word) : State × Nat :=
  if tensorBase ≤ a then s.tensorHostWrite (a - tensorBase) v
  else
    match a / 0x10000 with
    | 0x01 => s.writeClk a v
    | 0x02 => s.writePwr a v
    | 0x03 => s.writeCfg a v
    | 0x04 => s.writeNvm a v
    | 0x10 => s.writeSht a v
    | 0x11 => s.writeWin a v
    | 0x12 => s.writeRdo a v
    | 0x13 => s.writeCal a v
    | 0x20 => s.writeNpc a v
    | 0x30 => s.writeEvf p a v
    | 0x31 => s.writeTime a v
    | 0x32 => s.writeArc a v
    | 0x33 => s.writeRing a v
    | 0x34 => s.writeLnk a v
    | 0x35 => s.writeHka a v
    | 0x36 => s.writePio a v
    | 0x37 => s.writeSafe p a v
    | 0x38 => s.writeCnt a v
    | _ => accepted (s.plainWrite a v)

end Sys2Proof.Machine
end

