-- ==== Sys2Proof/Machine/Loader.lean ====
section
/-! DEFINITION. A checked image comes into force as one step (R113, R122, R124, R127, R131 to R134): the CFG registers, the
clocks, timing, windows, rings and queues, the link's basis, the Arcade, programs, events, engines, and REGINIT. -/

namespace Sys2Proof.Machine

/-! ### Loading registers -/

/-- A structure loads the bits of `mask` of a register: the stored value, the value in force, and a shadow held for this
cycle's boundary (R13, R102, R113). -/
def State.load (s : State) (a mask v : Nat) : State :=
  let mix (m : Nat) (w : Word) : Word := BitVec.ofNat 32 (andNot w.toNat m + land v m)
  let live := match regRow a with | some r => land mask r.rwb | none => 0
  let s1 := (s.setReg a (mix mask (s.reg a))).setLive a (mix live (s.liveReg a))
  match Sparse.find s1.heldOld a with
  | none => s1
  | some w => s1.withHeldOld (Sparse.insert s1.heldOld a (mix mask w))

/-- A field is loaded. -/
def State.loadFld (s : State) (f : Fld) (v : Nat) : State :=
  s.load f.addr ((2 ^ f.w - 1) * 2 ^ f.lo) ((v % 2 ^ f.w) * 2 ^ f.lo)

/-! ### What changes -/

/-- The objects of the structure in force. -/
def State.shape (s : State) : Shape := shapeOf s.cfg.sections

/-- The windows that a change creates, changes or removes (R268). -/
def changedWindows (full : Bool) (old new : List Section) : List Nat :=
  let bytes (l : List Section) (i : Nat) : List Byte :=
    let b := winBytes (fun t k => (findSection l t k).getD []) i
    if bit (leAt b 0 1) 0 then b else []
  (List.range 1024).filter fun i => full || bytes old i != bytes new i

/-- What ring `n` rests on, so that a change of it affects the ring (R25): its descriptor and shares, its windows, its programs,
its regions with the windows that fill them, and the housekeeping section where it names the ring. -/
def Shape.ringParts (h : Shape) (n : Nat) : List Byte × Option (Bool × Nat) × List (Nat × Win) × List (Nat × List Byte) ×
    List (Nat × RegionDef × List (Nat × Win)) × List Byte :=
  let hk := h.body 0x0B 0
  (ringBytes h.secs n, h.share? 0 n, h.onRing n, (h.progs.filter fun p => p.2.2.ring == n).map fun p => (p.1, p.2.1),
    (h.regions.filter fun g => g.2.ring == n).map fun g => (g.1, g.2, h.onWriter g.2.writer),
    if leAt hk 1 1 = n then hk else [])

/-! ### Timing (R102, R132, R257) -/

/-- The values in force that a TIMING section supplies. -/
def State.loadTiming (s : State) : State :=
  let b := s.timing
  let s1 := ((s.loadFld SHT_ROW_TIME_row_pix (leAt b 2 2)).loadFld SHT_FRAME_PERIOD_period (leAt b 4 4)).loadFld SHT_GAIN_hcg
    (leAt b 0x0A 1)
  (List.range 4).foldl (fun s e => s.loadFld (SHT_EXP_exp e) (leAt b (0x10 + 4 * e) 4)) s1

/-- The first exposure of the frame that has been sampled next has not started. -/
def State.nextUnexposed (s : State) (f : Frame) : Bool :=
  !s.sht.accepted && s.sht.phase == 0 &&
    (f.mode == 1 || f.trigMode || (!f.first && (match s.sht.cur with
      | some g => decide ((s.sht.slot + s.sht.after) * g.rowPix + f.window0 < f.period)
      | none => false)))

/-- A new TIMING section governs the first frame whose first exposure starts after the boundary (R132): the frame sampled
next is sampled again, its X_0 kept while the governor acts. -/
def State.resample (s : State) : State :=
  match s.sht.next with
  | none => s
  | some f =>
    if s.nextUnexposed f then
      let h := s.sht
      let results := if s.get SHT_CTRL_gov_mode = 0 then h.results else Sparse.insert h.results f.number (nth f.x 0)
      let t := (s.setSht { h with hostExp := false, results := results }).takeSample f.number
        (if f.first then none else h.cur)
      t.setSht { t.sht with hostExp := h.hostExp }
    else s

/-! ### Windows (R259, R268, R272, R273) -/

/-- Anchors, enables and counts of the windows, from the list of those that changed. -/
def State.applyWindows (s : State) (full : Bool) (ch : List Nat) (frame : Nat) : State :=
  let h := s.shape
  let flags (i : Nat) : Option Nat := (s.window? i).map (·.flags)
  let hit (i : Nat) : Bool := full || ch.contains i
  let anchors := ch.foldl (fun a i => if (flags i).isSome then Sparse.put 0 a i frame else Sparse.erase a i)
    (if full then [] else s.cfg.anchors)
  let s1 := ((s.setCfg { s.cfg with anchors := anchors }).withWins (s.wins.filter fun x => !hit x.1))
  let s2 := (List.range 32).foldl
    (fun t k =>
      let here := (List.range 32).filter fun j => hit (32 * k + j)
      let on := here.filter fun j => match flags (32 * k + j) with | some f => bit f 1 | none => false
      if here.isEmpty then t else t.load (aWIN_ENABLE k) (maskOf here) (maskOf on)) s1
  let worst := h.worstSlot
  (((s2.put WIN_STATUS_windows h.wins.length).put WIN_STATUS_max_per_slot worst.1).put WIN_CUT_LOAD_worst_pix worst.2.1).put
    WIN_CUT_LOAD_worst_row worst.2.2

/-! ### Rings and queues (R31, R124, R133, R487, R492, R505, R507, R508) -/

/-- The registers of ring `n` take its descriptor and its share entry; a created ring starts afresh, and packets that its
number still holds leave first. -/
def State.bindRing (s : State) (h : Shape) (n : Nat) (d : RingDef) (fresh : Bool) : State :=
  let e := h.share? 0 n
  let g := h.guaranteed 0 n
  let shares := match e with | some x => x.2 | none => 0
  let on := d.role == 1 || d.role == 2 || bit d.flags 1
  let s0 := if fresh then
      ((((s.load (aRING_CTRL n) (2 ^ 32 - 1) 0).put (RING_SEQ_next n) 0).setReg (aRING_FRAMES n) 0).setReg (aRING_FILL n) 0).setReg
        (aRING_LAST_FRAME n) 0
    else s
  let s1 := (s0.setReg (aRING_DESC0 n) (BitVec.ofNat 32 (d.flags + 2 ^ 8 * d.priority + 2 ^ 16 * d.tag))).setReg
    (aRING_DESC1 n) (BitVec.ofNat 32 (d.spool + 2 ^ 16 * d.role))
  let s2 := (s1.setReg (aRING_CLASS n) (BitVec.ofNat 32 (3 * b2n g + 8 * b2n on + 2 ^ 8 * shares))).loadFld (RING_CTRL_en n) (b2n on)
  let r := s2.ring n
  let s3 := s2.setRing n (if fresh then { spool := r.spool } else { r with restore := false })
  s3.setLink { s3.link with buckets := if fresh || !g then Sparse.erase s3.link.buckets n else s3.link.buckets }

/-- The bytes that a detection ring keeps for short packets, less those of short packets that still wait (R505). -/
def State.reserveShort (s : State) (h : Shape) (n : Nat) (d : RingDef) : State :=
  if d.role ≠ 1 then s
  else
    let shorts := ((s.ring n).spool.filter fun p => p.type == 5 && bit p.pflags 3).length
    let users := (h.progs.filter fun p => p.2.2.ring == n).length
    s.setRing n { s.ring n with reserved := 64 * users - 36 * shorts }

/-- One ring of the new structure: created, changed, affected or as it stood. -/
def State.applyRing (s : State) (full first : Bool) (old new : Shape) (n : Nat) (d : RingDef) : State :=
  let fresh := full || !s.ringExists n || (s.ring n).removing
  let affected := fresh || old.ringParts n != new.ringParts n
  let rebound := fresh || ringBytes old.secs n != ringBytes new.secs n || old.share? 0 n != new.share? 0 n
  let s1 := if rebound then s.bindRing new n d fresh else s
  let s2 := s1.reserveShort new n d
  (if affected && !first then s2.setRing n { s2.ring n with recfg := true } else s2).refill n

/-- The rings of a structure, and the removal of those that it does not have (R133). -/
def State.applyRings (s : State) (full first : Bool) (old new : Shape) : State :=
  let gone := (List.range 256).filter fun n => decide (2 ≤ n) && s.ringExists n && (new.ring? n).isNone
  let s1 := (new.rings.filter fun r => decide (2 ≤ r.1)).foldl (fun t r => t.applyRing full first old new r.1 r.2) s
  let s2 := gone.foldl
    (fun t n => (((t.dropShadow (aRING_CTRL n)).setRing n { t.ring n with removing := true }).removeDue n)) s1
  let s3 := s2.put RING_STATUS_rings (((List.range 256).filter s2.ringExists).length)
  if s3.linkActive && !s3.link.bringing then s3.recompute else s3.showCapacity

/-- Exists, depth and priority of inbound queue `q` in force; queue 0 always exists (R210, R507). -/
def State.queueDesc (s : State) (q : Nat) : Bool × Nat × Nat :=
  if q = 0 then (true, 32, 0)
  else (s.get (RING_INQ_DESC_flags q) == 1, s.get (RING_INQ_DESC_depth q), s.get (RING_INQ_DESC_priority q))

/-- The descriptor that the structure in force gives queue `q`. -/
def State.queueGiven (s : State) (q : Nat) : Bool × Nat × Nat :=
  let d := sliceBytes (s.body 4 4) (64 * q) 64
  if q = 0 then (true, 32, 0)
  else if bit (leAt d 0 1) 0 then (true, leAt d 1 1, leAt d 2 1) else (false, 0, 0)

/-- Queue `q` takes the descriptor of the structure in force; one that is created or removed remembers no tag (R212). -/
def State.loadQueue (s : State) (q : Nat) : State :=
  let d := s.queueGiven q
  if q = 0 ∨ d = s.queueDesc q then s
  else
    let s1 := ((s.put (RING_INQ_DESC_flags q) (b2n d.1)).put (RING_INQ_DESC_depth q) d.2.1).put (RING_INQ_DESC_priority q) d.2.2
    if d.1 = (s.queueDesc q).1 then s1 else s1.setReg (aRING_INQ_STAT q) 0

/-- The commands that wait in queue `q`. -/
def State.queued (s : State) (q : Nat) : List QueuedCmd := Sparse.get [] s.ports.queues q

/-- Queues of a new structure: one that holds commands serves those first under its old descriptor (R508). -/
def State.applyQueues (s : State) : State :=
  (List.range 16).foldl
    (fun t q =>
      let n := (t.queued q).length
      if t.queueGiven q = t.queueDesc q then t.withPorts { t.ports with underOld := Sparse.erase t.ports.underOld q }
      else if n = 0 then t.loadQueue q
      else (t.withPorts { t.ports with underOld := Sparse.insert t.ports.underOld q n })) s

/-! ### Link, Arcade, programs, events, engines -/

/-- The basis of SHARES; a full image also loads what the link asks for, and renegotiates where that changed (R137, R539). -/
def State.applyLink (s : State) (full minimal : Bool) : State :=
  let h := s.shape
  let s0 := s.put LNK_CAPACITY_basis h.capacity
  if !full then s0
  else
    let key (t : State) := (t.get LNK_CTRL_lane_en, t.get LNK_CTRL_max_rate, t.get LNK_CTRL_max_version)
    let s1 := ((s0.put LNK_CTRL_lane_en (2 ^ leAt (h.body 5 0) 0 1 - 1)).put LNK_CTRL_max_rate (leAt (h.body 5 0) 1 1)).put
      LNK_CTRL_max_version (if minimal then 1 else 2)
    if key s1 = key s then s1 else s1.renegotiate

/-- A pass of a region that is re-created or removed ends after its frame in progress, which is read whole before the content
goes, with 0xD7 logged (15, At the edges). -/
def State.finishPass (s : State) (r : Nat) (d : RegionDef) : State :=
  match (s.region r).sending with
  | some x => (s.setRegion r { s.region r with pass := some [], ending := true, sending := some { x with left := 0 } }).sendRows r d
  | none => if (s.region r).pass.isSome then (s.endPass r).report 0xD7 14 [r] else s

/-- Region `r` loses its content and its registers (R124, R464). -/
def State.clearRegion (s : State) (r : Nat) (d : RegionDef) : State :=
  let s1 := s.setIntake d.writer []
  let inside (a : Nat) : Bool := decide (d.base ≤ a) && decide (a < d.base + d.length)
  let s2 : State := (s1.withArcadeMem (cellsClear s1.arcadeMem d.base d.length)).withArc { s1.arc with badWords := s1.arc.badWords.filter fun a => !inside a }
  ([aARC_REG_STATE r, aARC_REG_TRIG_FRAME_LO r, aARC_REG_TRIG_FRAME_HI r, aARC_REG_TRIG_STAMP_LO r, aARC_REG_TRIG_STAMP_HI r,
    aARC_REG_COUNTS r, aARC_REG_HELD r, aARC_REG_DROPS r].foldl (fun t a => t.setReg a 0) s2).setRegion r {}

/-- Regions of a new structure: created, kept or removed (R464; 15, An overlay replaces the ARCADE section). -/
def State.applyRegions (s : State) (full : Bool) (old new : Shape) : State :=
  let of (h : Shape) (r : Nat) : Option RegionDef := (h.regions.find? fun g => g.1 == r).map (·.2)
  let view (h : Shape) (r : Nat) := (of h r).map fun d =>
    (sliceBytes (h.body 0x0A 0) (16 + 32 * r) 32, h.onWriter d.writer, h.share? 1 d.writer)
  let changed := (List.range 16).filter fun r => full || view old r != view new r
  let s := changed.foldl (fun t r => match of old r with | some d => t.finishPass r d | none => t) s
  let s0 : State := if full then
      ((s.withArcadeMem []).withArc { s.arc with badWords := [], intake := [] }).withCfg { s.cfg with staged := 0 }
    else s
  let s1 := changed.foldl (fun t r => match of old r with | some d => t.clearRegion r d | none => t) s0
  let s2 := changed.foldl
    (fun t r => match of new r with
      | some d => (t.clearRegion r d).put (ARC_REG_STATE_state r) (b2n (bit d.flags 2))
      | none => t) s1
  (s2.put ARC_STATUS_regions new.regions.length).put ARC_STATUS_g_shares new.writerUsed

/-- Programs, their enables and parameters, and the NPC_PROG and NPC_DATA that the image carries, for which the runs of later
frames wait (R134, R402). -/
def State.applyPrograms (s : State) (full : Bool) (carried : List (Nat × Nat)) (old new : Shape) (frame : Nat) : State :=
  let inv := maskOf (new.progs.map (·.1))
  let ch := (List.range 16).filter fun p => full || carried.contains (7, p) || findSection old.secs 7 p != findSection new.secs 7 p
  let s1 := ((s.put NPC_INVENTORY_programs inv).load aNPC_PROG_EN (maskOf ch) inv).put NPC_FLAGS_flags 0
  let s2 := if full then (List.range 16).foldl (fun t n => t.loadFld (NPC_PARAM_value n) 0) s1 else s1
  let data := (List.range 16).filterMap fun p =>
    if carried.contains (8, p) then
      (findSection new.secs 8 p).map fun b => (frame, leAt b 0 4, b.drop 4)
    else none
  let code := if !full && carried.any (·.1 == 7) then [(frame, 0, [])] else []
  let s3 := ((List.range 16).filter fun p => carried.contains (7, p)).foldl
    (fun (t : State) p => t.clearBad 3 (t.codeBase p) (8 * (planOf (t.body 7 p)).words)) s2
  (s3.withNpc { s3.npc with loads := s3.npc.loads ++ code ++ data }).npcLoads

/-- Every trigger unit's previous condition becomes true (R422; 14, A structure change). -/
def State.applyEvents (s : State) : State :=
  s.withEvf { s.evf with units := s.evf.units.map fun u => { u with prevTrue := true } }

/-- Pin engines of a new structure (R594, R619 to R621). -/
def State.applyEngines (s : State) (full : Bool) (old : Shape) : State :=
  ((List.range 8).foldl
    (fun t n =>
      let was := findSection old.secs 9 n
      if full && (t.section? 9 n).isSome then t.pioCreate n else t.pioChanged n was) s).showPio

/-! ### REGINIT (R113) -/

/-- One triple, as a write of the bits in its mask; a field of the frame boundary comes into force with the structure, one of a
commit with the next commit (R88). -/
def State.regInit (s : State) (t : Nat × Nat × Nat) : State :=
  match regRow t.1 with
  | none => s
  | some r =>
    let m := land t.2.2 r.rw
    let v := andNot (land (s.reg t.1).toNat r.rw) m + land t.2.1 m
    let s1 := (s.regWrite .backChannel t.1 (BitVec.ofNat 32 v)).1
    let s2 := s1.setSht { s1.sht with
      hostNew := s.sht.hostNew, written := if t.1 = aSHT_CTRL then s1.sht.written else s.sht.written }
    if r.boundary = .frame then s2.load t.1 m (s2.reg t.1).toNat else s2

/-- The triples that an image carries, instance by instance; those of images in force before are not applied again (DESIGN
CHOICE, notes/assumptions/79.md). -/
def State.applyRegInit (s : State) (i : Image) : State :=
  let ts := (List.range 8).flatMap fun k =>
    if i.carried.contains (0x0C, k) then triplesOf ((findSection i.sections 0x0C k).getD []) else []
  let s1 := ts.foldl State.regInit s
  let curves := ts.any fun t => t.1 / 0x100 == aPIPE_CURVE_KNEE 0 0 / 0x100
  let s2 := if curves then s1.curveBoundary else s1
  s2.showLiveRings

/-! ### The step as a whole -/

/-- CFG registers of the structure that comes into force (04, Registers). -/
def State.applyCfg (s : State) (i : Image) (minimal : Bool) (frame : Nat) : State :=
  let h := s.shape
  let s1 := (s.put CFG_STATUS_structure (if minimal then 3 else if i.overlay then 2 else 1)).put CFG_STATUS_overlay_pending 0
  let s2 := ((s1.put CFG_ACTIVE_ID_id i.id).setReg aCFG_ACTIVE_VERSION (BitVec.ofNat 32 i.version)).setReg aCFG_BASE_ID
    (if i.overlay then s1.reg aCFG_BASE_ID else BitVec.ofNat 32 i.id)
  let s3 := (((s2.put CFG_APPLY_FRAME_frame frame).put CFG_ADMISSION_link_capacity h.capacity).put CFG_ADMISSION_link_used
    h.linkUsed).put CFG_ADMISSION_arc_used h.writerUsed
  s3.hwSet CFG_IRQ_STAT_applied

/-- The plans of a full image: its settings are in force, and a synthesizer whose plan was another one relocks (R102, R111,
R150, R649). Output enables and dividers that equal those in force relock nothing. -/
def State.applyPlans (s : State) : State :=
  let b := s.body 1 0
  let one (t : State) (y : Syn) : State :=
    let p := planRecord y b
    let same := t.planInForce y p && (t.synth y).running
    let t1 := t.loadPlan y p
    if same ∨ t.power = 1 then t1 else t1.startSyn y
  let s1 := (one (one s .a) .b).votesRestored
  if s1.clk.a.locked then s1 else s1.cutReadout

/-- A full image installs its patch or removes the one in force (R170). -/
def State.applyPatch (s : State) : State :=
  let p := b2n (s.has 0xF0 0)
  (s.put SYS_ROM_VER_patched p).put SYS_BOOT_REPORT_patched p

/-- The structure of an image comes into force (R122). -/
def State.install (s : State) (i : Image) (minimal : Bool) : State :=
  let full := !i.overlay
  let first := s.get CFG_STATUS_structure == 0
  let old := shapeOf s.cfg.sections
  let new := shapeOf i.sections
  let frame := s.sht.frameNo + 1
  let ch := changedWindows full s.cfg.sections i.sections
  let timing := full || old.body 2 0 != new.body 2 0
  let s0 := if old.has 0x0B 0 && !new.has 0x0B 0 then s.hkDrain else s
  let s1 := s0.setCfg { s0.cfg with sections := i.sections, key := if full then i.key else s0.cfg.key, waiting := none }
  let s2 := s1.applyCfg i minimal frame
  let s3 := if full && !minimal then s2.applyPlans.applyPatch else s2
  let s4 := if timing then s3.loadTiming else s3
  let s5 := s4.applyWindows full ch frame
  let s6 := (s5.applyRings full first old new).applyQueues
  let s7 := (s6.applyLink full minimal).applyRegions full old new
  let s8 := ((s7.applyPrograms full i.carried old new frame).applyEvents).applyEngines full old
  let s9 := s8.applyRegInit i
  ((if timing then s9.resample else s9).showSht).refault

/-! ### Minimal Mode (R166) -/

/-- The descriptor of window 0: the full array, RAW12, on ring 2, enabled. -/
def minimalWindow : List Byte :=
  [3#8, 0#8, 0#8, 0#8] ++ leBytes 2 0 ++ leBytes 2 0 ++ leBytes 2 5376 ++ leBytes 2 2048 ++ [2#8, 0#8, 1#8, 0#8]

/-- The descriptor of ring 2. -/
def minimalRing : List Byte := [3#8, 0#8] ++ leBytes 2 2 ++ leBytes 2 16384 ++ [0#8]

/-- A body padded with zeros. -/
def padded (b : List Byte) (n : Nat) : List Byte := b ++ List.replicate (n - b.length) 0#8

/-- The sections of Minimal Mode. -/
def minimalSections : List Section :=
  [{ type := 2, inst := 0,
     body := padded ([0#8, 1#8] ++ leBytes 2 256 ++ leBytes 4 25000000 ++ [0#8, 0#8, 1#8, 0#8] ++ leBytes 4 0 ++ leBytes 4 2000000) 32 },
   { type := 3, inst := 0, body := padded minimalWindow 1024 },
   { type := 4, inst := 0, body := padded (fixedRing 0 ++ fixedRing 1 ++ minimalRing) 4096 },
   { type := 5, inst := 0, body := [2#8, 0#8] ++ leBytes 2 1 ++ leBytes 2 0 ++ leBytes 2 0 ++ leBytes 4 (2 + 2 ^ 8 + 2 ^ 16) }]

/-- Minimal Mode's structure as an image. -/
def minimalImage : Image :=
  { overlay := false, id := 0, version := 0, base := 0, target := 0, key := [], sections := minimalSections
    carried := minimalSections.map fun x => (x.type, x.inst) }

/-- The structure of Minimal Mode comes into force, with its governor running. -/
def State.installMinimal (s : State) : State := (s.install minimalImage true).put SHT_CTRL_gov_mode 1

end Sys2Proof.Machine
end

