-- ==== Sys2Proof/Machine/Boot.lean ====
section
/-! DEFINITION. The boot sequence, the flash reader, host pushes, failed starts and Minimal Mode (R149 to R168, R180). -/

namespace Sys2Proof.Machine

/-- The boot's part replaced. -/
def State.setBoot (s : State) (b : Boot) : State := s.withBoot b

/-- The boot stands at a phase. -/
def State.bootAt (s : State) (p : BootPhase) : State := s.setBoot { s.boot with phase := p }

/-! ### The boot attempt log (R180) -/

/-- The first of the 256 records of a sector that is erased, if any. -/
def State.freeRecord (s : State) (sector : Nat) : Option Nat :=
  (List.range 256).find? fun k => (List.range 4).all fun j => s.nvmErased (1024 * sector + 4 * k + j)

/-- The sector and the record to write next: the two sectors are used in turn. -/
def State.nextRecord (s : State) : Option (Nat × Nat) :=
  match s.freeRecord 19, s.freeRecord 20 with
  | some (k + 1), _ => some (19, k + 1)
  | _, some (k + 1) => some (20, k + 1)
  | some 0, _ => some (19, 0)
  | none, some 0 => some (20, 0)
  | none, none => none

/-- One record is appended: boot number, report, active image and their CRC, programmed word by word. A full sector is
followed by the erasure of the other one; a supply warning skips both (R176, R180). -/
def State.bootRecord (s : State) : State :=
  if s.nvmWarning then s
  else
    match s.nextRecord with
    | none => s
    | some (sec, k) =>
      let ws := [s.boot.bootNumber, (s.reg aSYS_BOOT_REPORT).toNat, s.get CFG_ACTIVE_ID_id]
      let all := ws ++ [crc32c (wordBytes ws)]
      let w := 1024 * sec + 4 * k
      s.withNvm { s.nvm with
        recording := (List.range 4).map fun j => (w + j, BitVec.ofNat 32 (nth all j))
        eraseNext := if k = 255 then some (39 - sec) else none }

/-- The boot attempt log as it is read: the records of both sectors whose CRC is right, a torn one being ignored (R180). -/
def State.bootLog (s : State) : List (List Nat) :=
  ((List.range 512).map fun k =>
    (List.range 4).map fun j => (s.nvmWord (1024 * 19 + 4 * k + j)).toNat).filter fun r =>
      nth r 3 == crc32c (wordBytes (r.take 3))

/-! ### Seeds (R182, R326) -/

/-- The log entries of one seed bank, and whether it is torn. -/
def State.seedLook (s : State) (b : Nat) : State :=
  match s.seedKind b with
  | .torn => (s.report 0x48 4 [b]).put SYS_BOOT_REPORT_seed_torn 1
  | .foreign => s.report 0x4A 4 [b]
  | .valid => if seedsFit (s.seedPayload b) then s else s.report 0x68 9 [b]
  | .empty => s

/-- Step 6: the bank that this boot takes, else the factory seeds; where sectors 0 and 1 cannot be read, none (R166). -/
def State.chooseSeeds (s : State) : State :=
  let t := ((s.setReg aNVM_SEED_SEQ_A (s.nvmWord (seedBase 0))).setReg aNVM_SEED_SEQ_B (s.nvmWord (seedBase 1))).put
    SYS_BOOT_REPORT_seed_torn 0
  let done (t : State) : State := t.setBoot { t.boot with seedsChosen := true }
  let factory (t : State) : State := ((t.put SYS_BOOT_REPORT_seed_bank 0).put SYS_BOOT_REPORT_seed_factory 1).report 0x49 4 [2]
  let u := (t.seedLook 0).seedLook 1
  if !(s.identityFits && s.factoryFits) then done (factory u)
  else
    match u.seedChoice with
    | some b => done ((u.put SYS_BOOT_REPORT_seed_bank b).put SYS_BOOT_REPORT_seed_factory 0)
    | none => done (factory u)

/-! ### Minimal Mode and failed starts (R165 to R168) -/

/-- Minimal Mode is entered. -/
def State.enterMinimal (s : State) : State :=
  let s1 := (s.setCfg { s.cfg with load := none, waiting := none }).put CFG_LOAD_STATUS_busy 0
  let s2 := (s1.setBoot { s1.boot with image := none, watchdog := false }).minimalClocks
  let s3 := (s2.bootAt .minimal).installMinimal
  let s4 := (if s3.boot.seedsChosen then s3 else s3.chooseSeeds).loadSeeds
  let s5 := ((s4.enterPower 3).put SYS_BOOT_REPORT_minimal 1).put SYS_BOOT_REPORT_complete 1
  ((s5.hwSet SYS_SRC_IRQ_STAT_minimal).refault.showLevel).bootRecord

/-- A failed start is counted with its cause: Minimal Mode at the third, else `below` (R165). -/
def State.countFailure (s : State) (c : Nat) (below : State → State) : State :=
  let n := min 3 (s.get SYS_BOOT_REPORT_attempts + 1)
  let s1 := (s.put SYS_BOOT_REPORT_cause c).put SYS_BOOT_REPORT_attempts n
  let s2 := if c < 0x20 then s1.report c 0 [0] else s1
  if n = 3 then s2.enterMinimal else below s2

/-- The attempt ends with a cause: a retry is due below three failures. -/
def State.attemptFails (s : State) (c : Nat) : State :=
  let s1 := (s.setCfg { s.cfg with load := none, waiting := none }).put CFG_LOAD_STATUS_busy 0
  let s2 := s1.setBoot { s1.boot with image := none, watchdog := false }
  s2.countFailure c fun t => t.bootAt .failed

/-- BOOT_RETRY: 10 ms after a failed start (R165). -/
def execBootRetry (s : State) : Host.Outcome State Fault Refusal :=
  .next (if s.boot.phase = .failed then s.resetTo 4 0 else s)

/-- BOOT_WATCHDOG_EXPIRY: step 11 has not been reached while the watchdog counts (R151). -/
def execBootWatchdogExpiry (s : State) : Host.Outcome State Fault Refusal :=
  .next (
    match s.boot.phase with
    | .held => s
    | .failed => s
    | .done => s
    | .minimal => s
    | .off => s
    | _ => if s.boot.watchdog then s.attemptFails 0x0C else s)

/-! ### The flash (R154 to R162) -/

/-- `out` shows the bytes from `base`; a piece of the flash replaces those it covers. -/
def splice (base : Nat) (out : List Byte) (p : Nat × List Byte) : List Byte :=
  let lo := max p.1 base
  let hi := min (p.1 + p.2.length) (base + out.length)
  if lo < hi then out.take (lo - base) ++ (p.2.drop (lo - p.1)).take (hi - lo) ++ out.drop (hi - base) else out

/-- `n` bytes of the flash at an offset, addressed with 3 bytes or 4. A flash that takes the other form answers with its lines
high (05, Worked example; DEDUCED, notes/assumptions/33.md). -/
def flashBytes (e : BootEnv) (wide : Bool) (o n : Nat) : List Byte :=
  let ones := List.replicate n 0xFF#8
  if e.flash4 != wide then ones else e.flash.foldl (splice (if wide then o else o % 2 ^ 24)) ones

/-- The form of a read (R154): address lines, clocks of the mode byte, dummy clocks, data lines. -/
def flashForm (opcode : Nat) : Nat × Nat × Nat × Nat :=
  match opcode with
  | 0x0B => (1, 0, 8, 1)
  | 0x6B => (1, 0, 8, 4)
  | 0xEB => (4, 2, 4, 4)
  | _ => (1, 0, 0, 1)

/-- `n` bits of a value, most significant first, as they stand on `lines` lines at each clock, FD0 first. -/
def onLines (lines n v : Nat) : List (Option (List Bool)) :=
  (List.range (n / lines)).map fun k => some ((List.range lines).map fun l => bit v (n - lines * (k + 1) + l))

/-- What the reader drives before the data, clock by clock: opcode and address, the mode byte 0x00, and dummy clocks on which
it drives nothing (R154). -/
def FlashCmd.driven (c : FlashCmd) : List (Option (List Bool)) :=
  let f := flashForm c.opcode
  onLines 1 8 c.opcode ++ (match c.addr with | some a => onLines f.1 (8 * a.1) a.2 | none => []) ++
    onLines 4 (4 * f.2.1) 0 ++ List.replicate f.2.2.1 none

/-- The clocks on which the flash sends the data. -/
def FlashCmd.dataClocks (c : FlashCmd) : Nat := 8 * c.bytes / (flashForm c.opcode).2.2.2

/-- The flash reader sends commands. -/
def State.flashSend (s : State) (cs : List FlashCmd) : State := s.setBoot { s.boot with flashSent := s.boot.flashSent ++ cs }

/-- The reads of the boot record, in order, as (offset, address bytes) (R159). -/
def recordReads : List (Nat × Nat) := [(0, 3), (0, 4), (0x1000, 3), (0x1000, 4)]

/-- One read of the boot record, where its copy is valid. -/
def recordAt (e : BootEnv) (x : Nat × Nat) : Option (List Byte × Nat) :=
  let b := flashBytes e (x.2 == 4) x.1 32
  if leAt b 0 4 = 0x52425650 ∧ crc32c (b.take 0x1C) = leAt b 0x1C 4 then some (b, x.2) else none

/-- The first valid copy of the boot record, with the address length that read it (R159). -/
def recordOf (e : BootEnv) : Option (List Byte × Nat) := recordReads.findSome? (recordAt e)

/-- The reads that this takes, with opcode 0x03 at fck_div 3 (R157, R159). -/
def recordCmds (e : BootEnv) : List FlashCmd :=
  (recordReads.take ((recordReads.findIdx fun x => (recordAt e x).isSome) + 1)).map fun x =>
    { opcode := 0x03, addr := some (x.2, x.1), bytes := 32 }

/-- The read command for images: the boot record's, or 0x0B under BOOTSEL 0b01 (R146, R160). -/
def State.readCmd (s : State) : Nat := if s.supply.straps.bootsel = 1 then 0x0B else nth s.boot.record 0

/-- A read of an image. -/
def State.imageRead (s : State) (offset n : Nat) : FlashCmd :=
  { opcode := s.readCmd, addr := some (nth s.boot.record 1, offset), div := nth s.boot.record 2, bytes := n }

/-- A poll of the status register (R158). -/
def statusRead : FlashCmd := { opcode := 0x05, bytes := 1 }

/-- An image offset of a boot record. -/
def imageOffset (o : Nat) : Bool := decide (0x2000 ≤ o) && o % 4096 == 0

/-- A boot record that ends the attempt with 0x09 (R157, R160): FCK is f_SYS / (2 (fck_div + 1)). -/
def State.recordBad (s : State) (b : List Byte) (len : Nat) : Bool :=
  let cmd := leAt b 4 1
  let div := leAt b 6 1
  let sec := leAt b 0x0C 4
  let fast := s.clk.a.vcoDiv * 2 > 100000 * (div + 1) * (s.clk.a.refDiv * cfgDiv (s.liveReg (synCfg .a 4)))
  !([0x03, 0x0B, 0x6B, 0xEB].contains cmd) || leAt b 5 1 != len || decide (7 < div) || leAt b 7 1 != 0 || leAt b 0x10 12 != 0 ||
    !imageOffset (leAt b 8 4) || (sec != 0 && !imageOffset sec) || (cmd == 0x03 && s.supply.straps.bootsel == 0 && fast)

/-- An image is staged from flash and its load starts (R161, R162). -/
def State.stageFlash (s : State) (e : BootEnv) (offset : Nat) : State :=
  let wide := nth s.boot.record 1 == 4
  let head := flashBytes e wide offset 64
  let total := leAt head 8 4
  let s1 := (s.setCfg { s.cfg with staged := 0 }).stageBytes 0 head
  let s2 := if total ≤ 2 ^ 22 then
      (s1.stageBytes 0 (flashBytes e wide offset total)).flashSend [s.imageRead offset 64, s.imageRead offset total]
    else s1.flashSend [s.imageRead offset 64]
  let l : Load := { overlay := false, target := 0, boot := true }
  ((s2.setCfg { s2.cfg with load := some l }).put CFG_LOAD_STATUS_busy 1).bootAt .loading

/-- The boot record is read, and the primary image staged. -/
def State.flashRecord (s0 : State) (e : BootEnv) : State :=
  let s := s0.flashSend (recordCmds e)
  match recordOf e with
  | none => s.attemptFails 0x08
  | some (b, n) =>
    if s.recordBad b n then s.attemptFails 0x09
    else
      let r := [leAt b 4 1, n, leAt b 6 1, leAt b 8 4, leAt b 0x0C 4]
      (s.setBoot { s.boot with record := r, secondary := false }).stageFlash e (leAt b 8 4)

/-- The status is polled: the boot record follows once it shows no write in progress (R158). -/
def State.flashPoll (s0 : State) (e : BootEnv) : State :=
  let s := s0.flashSend [statusRead]
  if e.flashBusy then s.bootAt .waitFlash else s.flashRecord e

/-- The identification is read, and the status polled (R158). -/
def State.flashFirst (s : State) (e : BootEnv) : State :=
  let id := sliceBytes e.flashId 0 3
  let s1 := ((s.flashSend [{ opcode := 0x9F, bytes := 3 }]).put SYS_FLASH_ID_jedec (leNat id)).put SYS_FLASH_ID_valid 1
  if id.all (· == 0#8) ∨ id.all (· == 0xFF#8) then s1.attemptFails 0x06
  else s1.flashPoll e

/-- FLASH_BUSY_TIMEOUT: the write-in-progress bit has not cleared within 10 ms (R158). -/
def execFlashBusyTimeout (s : State) : Host.Outcome State Fault Refusal :=
  .next (if s.boot.phase = .waitFlash ∧ s.boot.record.isEmpty then s.attemptFails 0x07 else s)

/-! ### Steps 8 to 11 -/

/-- Steps 10 and 11: the structure, the seeds, READY, the report and the log record. -/
def State.finishBoot (s : State) (i : Image) : State :=
  let s1 := ((s.install i false).loadSeeds).enterPower 3
  let push := b2n (s.supply.straps.bootsel == 2)
  let s2 := ((((s1.put SYS_BOOT_REPORT_cause 0).put SYS_BOOT_REPORT_attempts 0).put SYS_BOOT_REPORT_secondary
    (b2n s.boot.secondary)).put SYS_BOOT_REPORT_host_push push).put SYS_BOOT_REPORT_complete 1
  let s3 := (s2.setReg aSYS_BOOT_TIME (BitVec.ofNat 32 (min (2 ^ 32 - 1) (s.boot.elapsed / (2 ^ 24 * 1000))))).hwSet
    SYS_SRC_IRQ_STAT_boot_done
  let s4 := s3.setBoot { s3.boot with phase := .done, image := none, watchdog := false }
  (s4.refault.showLevel).bootRecord

/-- Step 9, SYNB (R149). -/
def State.bootSynb (s : State) (e : BootEnv) (i : Image) : State :=
  if s.clk.b.locked then s.finishBoot i
  else if e.lockB then (s.launch .b).finishBoot i
  else s.bootAt .waitLockB

/-- Step 9: SYNB starts on the image's plan, unless it runs on it. -/
def State.startSynb (s : State) (e : BootEnv) (i : Image) : State :=
  let p := planRecord .b ((findSection i.sections 1 0).getD [])
  let s1 := if s.planInForce .b p && s.clk.b.running then s else (s.loadPlan .b p).startSyn .b
  s1.bootSynb e i

/-- Step 9, SYNA (R149). -/
def State.bootSyna (s : State) (e : BootEnv) (i : Image) : State :=
  if s.clk.a.locked then s.startSynb e i
  else if e.lockA then (s.launch .a).startSynb e i
  else s.bootAt .waitLockA

/-- Steps 8 and 9 (R150, R169): a patch is installed in supervisor RAM before the synthesizers relock. -/
def State.bootRest (s0 : State) (e : BootEnv) (i : Image) : State :=
  let patch := (findSection i.sections 0xF0 0).isSome
  let s := if patch then s0.put SYS_ROM_VER_patched 1 else s0
  if patch && !e.patchOk then s0.attemptFails 0x0D
  else
    let p := planRecord .a ((findSection i.sections 1 0).getD [])
    let s1 := if s.planInForce .a p && s.clk.a.locked then s else (s.loadPlan .a p).startSyn .a
    s1.bootSyna e i

/-! ### Steps 1 to 7 -/

/-- Step 7 (R146, R163, R179). -/
def State.bootObtain (s : State) (e : BootEnv) : State :=
  if s.supply.straps.bootsel = 3 then (s.put SYS_BOOT_REPORT_cause 0x0F).enterMinimal
  else if s.sealBad then s.attemptFails 0x0E
  else if s.supply.straps.bootsel = 2 then (s.setBoot { s.boot with phase := .waitPush, watchdog := false })
  else s.flashFirst e

/-- Steps 5 and 6. -/
def State.bootTests (s : State) (e : BootEnv) : State :=
  if !e.capsOk then s.attemptFails 0x03
  else if !e.arcadeOk then s.attemptFails 0x05
  else s.chooseSeeds.bootObtain e

/-- Step 4: SYNA has locked on the boot plan, or waits; a host push starts SYNB (R147, R148). -/
def State.bootLocked (s : State) (e : BootEnv) : State :=
  if !s.clk.a.locked && !e.lockBoot then s
  else
    let s1 := if s.clk.a.locked then s else s.launch .a
    let s2 := if s.supply.straps.bootsel = 2 then s1.startPublished else s1
    let s3 := if s.supply.straps.bootsel = 2 && e.lockB && s2.clk.b.trying then s2.launch .b else s2
    s3.bootTests e

/-- Step 3: the reference is there with its first measurement, or is waited for. -/
def State.bootReference (s : State) (e : BootEnv) : State :=
  let s1 := if e.refKhz = 0 then s else (s.put CLK_STATUS_ref_present 1).put CLK_REF_MEAS_ref_khz e.refKhz
  let khz := s1.get CLK_REF_MEAS_ref_khz
  if !s1.on CLK_STATUS_ref_present ∨ khz = 0 then s1.bootAt .waitReference
  else ((((s1.loadPlan .a (bootPlan khz false)).startSyn .a).bootAt .waitLockBoot)).bootLocked e

/-- Steps 1 and 2: identity and factory trim (R703). -/
def State.bootIdentity (s0 : State) (e : BootEnv) : State :=
  let s := s0.showSeal
  if !(s.identityFits && s.factoryFits) then s.attemptFails 0x04
  else
    let s1 := (s.setReg aSYS_SERIAL_LO (s.nvmWord 0)).setReg aSYS_SERIAL_HI (s.nvmWord 1)
    (s1.setReg aSYS_GRADE (BitVec.ofNat 32 ((s.nvmWord 2).toNat % 2))).bootReference e

/-- The boot goes on from where it stands until it waits for something. -/
def State.bootStep (s : State) (e : BootEnv) : State :=
  match s.boot.phase, s.boot.image with
  | .released, _ => s.bootIdentity e
  | .waitReference, _ => s.bootReference e
  | .waitLockBoot, _ => s.bootLocked e
  | .waitFlash, _ =>
    if s.boot.secondary then s.stageFlash e (nth s.boot.record 4)
    else s.flashPoll e
  | .loading, some i => s.bootRest e i
  | .waitLockA, some i => s.bootSyna e i
  | .waitLockB, some i => s.bootSynb e i
  | _, _ => s

/-- BOOT_SEQUENCE: the boot steps, with what the board and the analogue parts present (R149). A supervisor that has stopped takes
no step (R652). -/
def execBootSequence (env : BootEnv) (s : State) : Host.Outcome State Fault Refusal :=
  .next (if s.safe.supervisorDead then s else s.bootStep env)

/-- REFERENCE_WAIT_TIMEOUT: no reference within 2 ms (R149, step 3). -/
def execReferenceWaitTimeout (s : State) : Host.Outcome State Fault Refusal :=
  .next (if s.boot.phase = .waitReference then s.attemptFails 0x01 else s)

/-- LOCK_TIMEOUT: a synthesizer has not locked within 200 us (R82; R149, steps 4 and 9). -/
def execLockTimeout (syn : Syn) (s : State) : Host.Outcome State Fault Refusal :=
  .next (
    match s.boot.phase, syn with
    | .waitLockBoot, .a => s.attemptFails 0x02
    | .waitLockA, .a => s.attemptFails 0x0A
    | .waitLockB, .b => s.attemptFails 0x0B
    | _, _ => s)

/-! ### What a load's end means to the boot -/

/-- A load has ended with a cause: an image from flash gives way to the secondary one or ends the attempt; a rejected push is a
failed start without a retry; elsewhere nothing (R125, R161, R164). A refusal for the seal or for a stopped supervisor is no
failed start of a push (R179, R652). -/
def State.loadRejected (s : State) (l : Load) (c : Nat) : State :=
  if !l.boot || c == 0x88 then s
  else
    match s.boot.phase with
    | .loading =>
      if s.boot.secondary then s.attemptFails c
      else
        let s1 := s.put SYS_BOOT_REPORT_primary_cause c
        if nth s1.boot.record 4 = 0 then s1.attemptFails c
        else s1.setBoot { s1.boot with phase := .waitFlash, secondary := true }
    | .waitPush =>
      let s1 := s.setBoot { s.boot with watchdog := false }
      if c = 0x0E then s1 else s1.countFailure c fun t => t
    | _ => s

/-- A full image that the host pushed is in force: the report names it, and Minimal Mode is over (R167). -/
def State.pushed (s : State) : State :=
  let s1 := (s.put SYS_BOOT_REPORT_host_push 1).put SYS_BOOT_REPORT_secondary 0
  if s.boot.phase = .minimal then
    (((s1.put SYS_BOOT_REPORT_minimal 0).put SYS_BOOT_REPORT_attempts 0).bootAt .done).refault
  else s1

end Sys2Proof.Machine
end

