-- ==== Sys2Proof/Machine/Boundary.lean ====
section
/-! DEFINITION. The end of a load's checks, its abort, and the frame boundary at which structures and registers take effect
(R121 to R131, R230). -/

namespace Sys2Proof.Machine

/-! ### Targets of overlays (R131) -/

/-- The last device frame whose readout has ended. -/
def State.endedFrame (s : State) : Nat := if s.sht.reading then s.sht.frameNo - 1 else s.sht.frameNo

/-- How far ahead the boundary before the frame with the low bits `t` lies, modulo 2^32. -/
def State.boundaryAhead (s : State) (t : Nat) : Nat := (t + 2 ^ 32 - (s.endedFrame + 1) % 2 ^ 32) % 2 ^ 32

/-- That boundary has passed; before the first frame none has. -/
def State.targetPassed (s : State) (t : Nat) : Bool :=
  decide (0 < s.sht.frameNo) && (s.boundaryAhead t == 0 || decide (2 ^ 31 ≤ s.boundaryAhead t))

/-- An accepted image waits for a boundary (R124, R131). -/
def State.imageWaits (s : State) (i : Image) : Bool :=
  s.sht.reading || (i.overlay && i.target != 0 && s.sht.running && s.boundaryAhead i.target != 0)

/-! ### Application -/

/-- A checked image that did not come from a boot comes into force. -/
def State.applyImage (s : State) (i : Image) : State :=
  let s1 := s.install i false
  if i.overlay then s1 else s1.pushed

/-- LOAD_CHECKS_COMPLETE: acceptance, or the first cause (R121). A patch of an image that no boot takes is installed now: a
failure rejects the image and leaves the patch in force as it was (R169). -/
def State.checksDone (s : State) (l : Load) (patchOk : Bool) : State :=
  match s.check l with
  | .reject c sec rec =>
    let s1 := if c = 0x3E then (s.stageBad s.stagedImage.2).foldl (fun t _ => t.arcBad) s else s
    (s1.cfgReject c sec rec).loadRejected l c
  | .accept i =>
    if l.overlay && l.target != 0 && s.targetPassed l.target then s.cfgReject 0x3A 0x3F 0
    else if !l.boot && i.sections.any (·.type == 0xF0) && i.carried.contains (0xF0, 0) && !patchOk then s.cfgReject 0x0D 0x3F 0
    else
      let s1 := (((s.setCfg { s.cfg with load := none }).put CFG_LOAD_STATUS_busy 0).put CFG_LOAD_STATUS_cause 0).put
        CFG_LOAD_STATUS_section 0
      let s2 := (s1.put CFG_LOAD_STATUS_record 0).hwSet CFG_IRQ_STAT_accepted
      if l.boot then s2.setBoot { s2.boot with phase := .loading, image := some i }
      else if s2.imageWaits i then
        (s2.setCfg { s2.cfg with waiting := some i }).put CFG_STATUS_overlay_pending (b2n i.overlay)
      else s2.applyImage i

/-- LOAD_CHECKS_COMPLETE; `errors` are the words, with their bits in error, that the loader's reads of the image find
(R478), `patchOk` says that its patch, if it has one, can be installed (R169). -/
def execLoadChecksComplete (s : State) (errors : List (Nat × Nat) := []) (patchOk : Bool := true) : Host.Outcome State Fault Refusal :=
  .next (match s.cfg.load with
  | some l => (s.readErrors stageBase s.stagedImage.2 errors).checksDone l patchOk
  | none => s)

/-- CFG_LOAD_CTRL.abort (R141): the load in progress, or a pending overlay, ends with 0x3C. -/
def State.abortLoad (s : State) : State :=
  match s.cfg.load with
  | some l => (s.cfgReject 0x3C 0x3F 0).loadRejected l 0x3C
  | none => if s.overlayPending then s.cfgReject 0x3C 0x3F 0 else s

/-- ABORT. -/
def execAbort (s : State) : Host.Outcome State Fault Refusal := .next s.abortLoad

/-- A write of CFG_LOAD_CTRL, with the cause 0x3B of a refused start, else 0: a start of both kinds is refused (R709); abort
acts on what stands, before a start of the same write (DESIGN CHOICE, notes/assumptions/79.md). -/
def State.loadCtrl (s : State) (v : Word) : State × Nat :=
  let s1 := if bit v.toNat 2 then s.abortLoad else s
  let start (overlay : Bool) : State × Nat := (s1.startLoad overlay, if s1.startRefused overlay then 0x3B else 0)
  match bit v.toNat 0, bit v.toNat 1 with
  | true, true => (s1.cfgRefuse 0x3B, 0x3B)
  | true, false => start false
  | false, true => start true
  | false, false => (s1, 0)

/-! ### The frame boundary (R6, R89, R130, R230) -/

/-- What a boundary does to loads and waiting images: an overlay whose target it was ends with 0x3A while its checks run
(R131, R141). -/
def State.boundaryImages (s : State) : State :=
  let next := (s.sht.frameNo + 1) % 2 ^ 32
  let s1 := match s.cfg.load with
    | some l => if l.overlay && l.target != 0 && l.target == next then s.cfgReject 0x3A 0x3F 0 else s
    | none => s
  match s1.cfg.waiting with
  | some i =>
    if !i.overlay || i.target == 0 || i.target == next then (s1.setCfg { s1.cfg with waiting := none }).applyImage i else s1
  | none => s1

/-- READOUT_END: the last slot of the readout has elapsed. -/
def execReadoutEnd (s : State) : Host.Outcome State Fault Refusal :=
  .next (match s.sht.cur with
  | none => s
  | some f =>
    if s.sht.reading && decide (f.slots ≤ s.sht.slot) then
      ((((s.closeReadout f).boundaryImages).boundaryOthers).commitBoundary).showSht
    else s)

end Sys2Proof.Machine
end

