-- ==== Sys2Proof/Machine/Views.lean ====
section
/-! DEFINITION. What a host read returns, and what a read does (R7, R194, R220): registers whose value is formed at the read,
the tensor memory window, and the reads that capture or pop. -/

namespace Sys2Proof.Machine

/-! ### Registers formed at the read -/

/-- CLK: the LIVE registers of each output read the values in force (R7); ref_sel is the strap. -/
def State.viewClk (s : State) (a : Nat) : Nat :=
  let live (y : Syn) (n : Nat) (cfg : Bool) : Nat := (s.liveReg (if cfg then synCfg y n else synDly y n)).toNat
  match idxAt (synCfg .a 0 + 8) 16 (synOutputs .a) a, idxAt (synCfg .a 0 + 12) 16 (synOutputs .a) a,
      idxAt (synCfg .b 0 + 8) 16 (synOutputs .b) a, idxAt (synCfg .b 0 + 12) 16 (synOutputs .b) a with
  | some n, _, _, _ => live .a n true
  | _, some n, _, _ => live .a n false
  | _, _, some n, _ => live .b n true
  | _, _, _, some n => live .b n false
  | _, _, _, _ => if a = aCLK_STATUS then setBits (s.reg a).toNat 0 1 (b2n s.supply.straps.xin) else (s.reg a).toNat

/-- The fields of CLK that the structure image supplies: the plans, the beats and the settings of the outputs (R11). -/
def clkFromImage (a : Nat) : Bool :=
  a == aCLK_SYNA_PLAN || a == aCLK_SYNB_PLAN || a == aCLK_BEAT_A || a == aCLK_BEAT_B || decide (aCLK_SYNA_OUT_CFG 0 ≤ a)

/-- No structure has come into force since the reset: fields that the structure image supplies read 0 (R11). -/
def State.noStructure (s : State) : Bool := s.get CFG_STATUS_structure == 0

/-- WIN: the descriptors and the enables in force (08, Registers). -/
def State.viewWin (s : State) (a : Nat) : Nat :=
  match idxAt (aWIN_DESC 0 0) 4 8192 a, idxAt (aWIN_LIVE_EN 0) 4 32 a with
  | some k, _ => if (s.window? (k / 8)).isSome then leAt (winBytes s.body (k / 8)) (4 * (k % 8)) 4 else 0
  | _, some k => (s.liveReg (aWIN_ENABLE k)).toNat
  | _, _ => (s.reg a).toNat

/-- RING: the fixed descriptors of rings 0 and 1, whose enable reads 1 (R482, R492), and of inbound queue 0 (R210). -/
def State.viewRing (s : State) (a : Nat) : Nat :=
  let v := (s.reg a).toNat
  if s.noStructure then if a = aRING_INQ_DESC 0 then 0x2001 else v
  else if a = aRING_DESC0 0 then 0x703
  else if a = aRING_DESC0 1 then 0x10703
  else if a = aRING_DESC1 0 then 0x40080
  else if a = aRING_DESC1 1 then 0x50040
  else if a = aRING_CTRL 0 ∨ a = aRING_CTRL 1 then setBits v 0 1 1
  else if a = aRING_CLASS 0 ∨ a = aRING_CLASS 1 then setBits v 3 1 1
  else if a = aRING_INQ_DESC 0 then 0x2001
  else if a = aRING_STATUS then setBits v 0 9 (max 2 (bits v 0 9))
  else v

/-- TIME: the time base, and its upper word as the port's last read of TIME_NOW_LO captured it (R431). -/
def State.viewTime (s : State) (p : Port) (a : Nat) : Nat :=
  if a = aTIME_NOW_LO then s.now % 2 ^ 32
  else if a = aTIME_NOW_HI then Sparse.get 0 s.time.captured p.num
  else (s.reg a).toNat

/-- PIO_ENGn_STAT, SHIFT, V and SR (20, Registers). -/
def State.viewPio (s : State) (a : Nat) : Nat :=
  let st := aPIO_ENG_STAT 0
  match idxAt st 64 8 a, idxAt (st + 8) 64 8 a, idxAt (st + 12) 64 8 a, idxAt (st + 16) 64 8 a, idxAt (st + 20) 64 8 a with
  | some n, _, _, _, _ =>
    let e := s.eng n
    s.get (PIO_ENG_STAT_cause n) + 2 ^ 8 * b2n (e.stall != 0) + 2 ^ 9 * (e.stall % 8) + 2 ^ 12 * b2n e.inject.isSome +
      2 ^ 13 * b2n e.signal + 2 ^ 14 * (e.flags % 4) + 2 ^ 16 * (e.tx.length % 32) + 2 ^ 21 * (e.rx.length % 32)
  | _, some n, _, _, _ => (s.pioRxf n).1
  | _, _, some n, _, _ =>
    let e := s.eng n
    e.count % 64 + 2 ^ 8 * (e.taken % 64) + 2 ^ 14 * b2n (e.rep != 0) + 2 ^ 16 * min 65535 e.rep
  | _, _, _, some n, _ => (s.eng n).v0 % 2 ^ 16 + 2 ^ 16 * ((s.eng n).v1 % 2 ^ 16)
  | _, _, _, _, some n => (s.eng n).sr % 2 ^ 32
  | _, _, _, _, _ => (s.reg a).toNat

/-- CNT: the upper half of a live count reads as the port's last read of the lower half captured it. -/
def State.viewCnt (s : State) (p : Port) (a : Nat) : Nat :=
  match idxAt (aCNT_LIVE 0 1) 8 32 a with
  | some k => Sparse.get 0 s.cnt.captured (32 * p.num + k)
  | none => (s.reg a).toNat

/-- The value of a register as a host reads it through a port (R194, R222). -/
def State.viewReg (s : State) (p : Port) (a : Nat) : Nat :=
  match a / 0x10000 with
  | 0x00 => if a = aSYS_IRQ_STAT then s.irqSummary else s.irqStat a
  | 0x01 => if s.noStructure && clkFromImage a then 0 else s.viewClk a
  | 0x10 => s.irqStat a
  | 0x11 => s.viewWin a
  | 0x20 => if a = aNPC_LIVE_PROG_EN then (s.liveReg aNPC_PROG_EN).toNat else (s.reg a).toNat
  | 0x30 => if a = aEVF_CHAN_LEVEL then s.channels else (s.reg a).toNat
  | 0x31 => s.viewTime p a
  | 0x33 => s.viewRing a
  | 0x36 => s.viewPio a
  | 0x38 => s.viewCnt p a
  | _ => (s.reg a).toNat

/-- The blocks that Minimal Mode does not serve: NPC, ARC and PIO; their reads return reset values (R220). -/
def absentInMinimal (a : Nat) : Bool := a / 0x10000 == 0x20 || a / 0x10000 == 0x32 || a / 0x10000 == 0x36

/-- What a host reads at an address (R194, R220, R380). -/
def State.readWord (s : State) (p : Port) (a : Nat) : Word :=
  BitVec.ofNat 32 (
    if tensorBase ≤ a then (if s.minimal then leNat (cellsRead [] 0 4) else leNat (s.tensorRead (a - tensorBase) 4))
    else if s.minimal && absentInMinimal a then (regReset a).toNat
    else s.viewReg p a)

/-- What a read does: TIME_NOW_LO and CNT_LIVEk_LO capture, PIO_ENGn_RXF pops (R431, R609). -/
def State.readEffect (s : State) (p : Port) (a : Nat) : State :=
  if tensorBase ≤ a ∨ (s.minimal && absentInMinimal a) then s
  else if a = aTIME_NOW_LO then s.captureNow p
  else match idxAt (aCNT_LIVE 0 0) 8 32 a, idxAt (aPIO_ENG_STAT 0 + 8) 64 8 a with
    | some k, _ => s.captureCounter p k
    | _, some n => (s.pioRxf n).2
    | _, _ => s

end Sys2Proof.Machine
end

