-- ==== Sys2Proof/Machine/Ports.lean ====
section
/-! DEFINITION. The control ports and the command serializer: frames, checks, locks, queues and responses (R188 to R225, R704). -/

namespace Sys2Proof.Machine

/-! ### Blocks and locks -/

/-- The index of the block that holds byte address `a` (R194); the tensor memory window counts as block 11. -/
def portBlock (a : Nat) : Option Nat :=
  if tensorBase ≤ a then (if a < 2 * tensorBase then some 11 else none)
  else
    let k := a / 0x10000
    if k < 6 then some k
    else if 0x10 ≤ k ∧ k ≤ 0x14 then some (k - 10)
    else if k = 0x20 then some 11
    else if 0x30 ≤ k ∧ k ≤ 0x38 then some (k - 36)
    else none

/-- Two addresses lie in one block, or both in the tensor memory window (R195). -/
def sameBlock (a b : Nat) : Bool :=
  if tensorBase ≤ a ∨ tensorBase ≤ b then decide (a / tensorBase = 1) && decide (b / tensorBase = 1)
  else a / 0x10000 == b / 0x10000

/-- The word address [15:0] within its block (CTL_LAST_REJECT). -/
def wordInBlock (a : Nat) : Nat := if tensorBase ≤ a then (a - tensorBase) / 4 % 2 ^ 16 else a % 0x10000 / 4

/-- The field of CTL_OWNER_LO or _HI that names the owner of block `n`. -/
def ownerField (n : Nat) : Fld := if n < 16 then ⟨aCTL_OWNER_LO, 2 * n, 2⟩ else ⟨aCTL_OWNER_HI, 2 * (n - 16), 2⟩

/-- The owner of block `n`: 0 free, else the port's number. -/
def State.owner (s : State) (n : Nat) : Nat := s.get (ownerField n)

/-- Block `n` is locked to a port other than `p`. -/
def State.lockedTo (s : State) (p : Port) (n : Nat) : Bool := s.owner n != 0 && s.owner n != p.num

/-- The blocks a lock word names. -/
def lockBlocks (v : Nat) : List Nat := setBitsOf 21 v

/-- The owners of the named blocks become `w`. -/
def State.setOwners (s : State) (bs : List Nat) (w : Nat) : State := bs.foldl (fun s n => s.put (ownerField n) w) s

/-- CTL_LOCK_BREAK with its key frees every lock, and logs the port and the freed map (R217, R659). -/
def State.lockBreak (s : State) (p : Port) : State :=
  let held := (List.range 21).filter fun n => s.owner n != 0
  ((s.setOwners held 0).hwSet CTL_IRQ_STAT_lock_broken).log
    { cause := 0, kind := 4, block := 5, args := [p.num, maskOf held], stamp := s.now }

/-! ### Rejections -/

/-- A command ends with a control-port cause: CTL_LAST_REJECT, CTL_CONFLICTS and CTL_IRQ_STAT. -/
def State.rejected (s : State) (p : Port) (cause : Nat) (addr : Option Nat) : State :=
  let block := match addr with | some a => (portBlock a).getD 31 | none => 31
  let word := match addr with | some a => (if (portBlock a).isSome then wordInBlock a else 0) | none => 0
  let s1 := s.setReg aCTL_LAST_REJECT (BitVec.ofNat 32 (cause + 2 ^ 8 * p.num + 2 ^ 10 * block + 2 ^ 16 * word))
  if cause = 0xA1 then
    (s1.bump (match p with | .spi => CTL_CONFLICTS_spi_lost | _ => CTL_CONFLICTS_i2c_lost)).hwSet CTL_IRQ_STAT_conflict
  else if cause = 0xA2 ∨ cause = 0xA9 then s1.hwSet CTL_IRQ_STAT_lock_reject
  else if cause = 0xA0 ∨ cause = 0xA8 then s1.hwSet CTL_IRQ_STAT_frame_error
  else s1.hwSet CTL_IRQ_STAT_other_reject

/-! ### Words -/

/-- The W1C status registers, whose writes release IRQB under irq_retrigger (R225). -/
def isIrqStat (a : Nat) : Bool := (irqPairs.map (·.1)).contains a || a == aCTL_IRQ_STAT || a == aWIN_IRQ_STAT

/-- IRQB is released for 200 SYS cycles after a W1C write that leaves the summary non-zero (R225). -/
def State.retrigger (s : State) : State :=
  if s.on CTL_PORT_CFG_irq_retrigger && land s.irqSummary (s.reg aSYS_IRQ_EN).toNat != 0 then
    s.withPorts { s.ports with irqRelease := 200 }
  else s

/-- The clock of the domain that holds address `a` reaches it (R221, R626, R642). -/
def State.domainRuns (s : State) (a : Nat) : Bool :=
  let analog := decide (3 ≤ s.power)
  if tensorBase ≤ a ∨ a / 0x10000 = 0x20 then
    s.synaOut 2 && analog && (s.on PWR_BLOCK_EN_npc || s.npc.runs.any fun r => r.phase != .waiting)
  else
    match a / 0x10000 with
    | 0x10 => s.synaOut 0 && analog
    | 0x12 => s.synaOut 0 && analog
    | 0x13 => s.synaOut 1 && analog
    | 0x32 => s.synaOut 3 && decide (2 ≤ s.power)
    | 0x35 => s.hkRuns
    | 0x36 => s.pioRuns
    | _ => true

/-- A write at address `a` acts on its domain beyond the value that it stores. -/
def actsThere (a : Nat) : Bool :=
  decide (tensorBase ≤ a) || [aSHT_CTRL, aRDO_RETIRE, aCAL_SEL, aNPC_DBG, aARC_CMD, aARC_HOST_ADDR, aHKA_CTRL, aPIO_CTRL].contains a ||
    (idxAt (aSHT_EXP 0) 4 4 a).isSome || (idxAt (aHKA_CORE_CFG 0) 16 2 a).isSome || (idxAt (aHKA_WIN_CFG 0) 16 8 a).isSome ||
    decide (aPIO_ENG_PC 0 ≤ a ∧ a < aPIO_ENG_PC 0 + 512)

/-- The words held for domains whose clock has come back take effect, in their order (R628). -/
def State.takeWaiting (s : State) : State :=
  let due := s.ports.waiting.filter fun w => s.domainRuns w.2.1
  if due.isEmpty then s
  else
    due.foldl (fun t w => (t.regWrite w.1 w.2.1 w.2.2).1)
      (s.withPorts { s.ports with waiting := s.ports.waiting.filter fun w => !s.domainRuns w.2.1 })

/-- One word that has passed the checks is written; its target's cause, else 0 (R188, R704). A word for a domain whose clock
stands is held in SYS (R628). SYS_RESET acts when its port has acknowledged the write, not here. -/
def State.wordWrite (s0 : State) (p : Port) (a : Nat) (v : Word) : State × Nat :=
  let s := s0.takeWaiting
  if a = aCTL_LOCK_TAKE then accepted (s.setOwners (lockBlocks v.toNat) p.num)
  else if a = aCTL_LOCK_FREE then accepted (s.setOwners (lockBlocks v.toNat) 0)
  else if a = aCTL_LOCK_BREAK then accepted (if v = 0xB4EA#32 then s.lockBreak p else s)
  else if a = aCFG_LOAD_CTRL then s.loadCtrl v
  else if actsThere a && !s.domainRuns a then accepted (s.withPorts { s.ports with waiting := s.ports.waiting ++ [(p, a, v)] })
  else
    let r := s.regWrite p a v
    if isIrqStat a then (r.1.retrigger, r.2) else r

/-- What a read returns: the value held in SYS where a write waits for the clock of its domain (R628). -/
def State.readHeld (s : State) (p : Port) (a : Nat) : Nat :=
  (s.ports.waiting.filter fun w => w.2.1 == a).foldl
    (fun old w => match regRow a with
      | some r => r.written old w.2.2.toNat 0
      | none => if tensorBase ≤ a then w.2.2.toNat else old) (s.readWord p a).toNat

/-- A word asks for a software reset. -/
def asksReset (x : Nat × Nat) : Bool := x.1 == aSYS_RESET && x.2 == 0xA5C3

/-! ### Commands at the serializer -/

/-- The header's op, word count and byte address (R193, R196). -/
def hdrOp (h : Nat) : Nat := bits h 28 4
def hdrCount (h : Nat) : Nat := bits h 22 6 + 1
def hdrAddr (h : Nat) : Nat := 4 * bits h 0 22

/-- Bytes of a frame's or body's data for a header: the words of a write. -/
def hdrData (h : Nat) : Nat := if hdrOp h = 1 ∨ hdrOp h = 2 then 4 * hdrCount h else 0

/-- The byte addresses of the words of a command, in order (R196). -/
def hdrAddrs (h : Nat) : List Nat :=
  (List.range (hdrCount h)).map fun i => if hdrOp h % 2 = 1 then hdrAddr h + 4 * i else hdrAddr h

/-- The op is a read. -/
def isRead (op : Nat) : Bool := op == 3 || op == 4

/-- A frame of SPI or I2C (R196 to R202, R208): truncated, with a reserved op, or an I2C read whose repeated START does not follow
its CRC directly 0xA0, a CRC mismatch 0xA8. -/
def parseFrame (p : Port) (bs : List Byte) : PortCmd :=
  if bs.length < 4 then { port := p, err := 0xA0, bytes := bs.length }
  else
    let h := beNat (bs.take 4)
    let n := 4 + hdrData h
    let c : PortCmd := { port := p, header := some h, bytes := bs.length }
    if 4 < hdrOp h ∨ bs.length < n + 2 ∨ (p = .i2c ∧ isRead (hdrOp h) ∧ n + 2 < bs.length) then { c with err := 0xA0 }
    else if crc16 (bs.take n) ≠ beNat ((bs.drop n).take 2) then { c with err := 0xA8 }
    else { c with data := (List.range (hdrData h / 4)).map fun i => beNat ((bs.drop (4 + 4 * i)).take 4) }

/-- A command of an inbound queue: a reserved op is 0xA0, a repeated tag 0xAB (R192, R196, R212). -/
def State.parseQueued (s : State) (q : Nat) (c : QueuedCmd) : PortCmd :=
  { port := .backChannel, header := some c.header, data := c.data, tag := c.tag, queue := q
    err := if 4 < hdrOp c.header then 0xA0
      else if s.on (RING_INQ_STAT_tag_valid q) && s.get (RING_INQ_STAT_last_tag q) == c.tag then 0xAB else 0 }

/-- The checks of a command whose frame is in order, in the order of the cause table (R192, R226): the first cause, or 0.
The address of a frame is that of its header; later words that leave its block are a crossing (DEDUCED,
notes/assumptions/36.md). -/
def State.checkAccess (s : State) (c : PortCmd) (h : Nat) : Nat :=
  let as := hdrAddrs h
  let a := hdrAddr h
  let b := (portBlock a).getD 31
  let write := hdrOp h == 1 || hdrOp h == 2
  let lockWord (x : Nat) : Bool := x == aCTL_LOCK_TAKE || x == aCTL_LOCK_FREE
  let hi := as.getLastD a
  if (portBlock a).isNone then 0xA3
  else if as.any fun x => !sameBlock a x then 0xA7
  else if !write then 0
  else if s.ports.writes.any fun w => decide (w.1.num < c.port.num) && decide (w.2.1 ≤ hi) && decide (a ≤ w.2.2) then 0xA1
  else if s.lockedTo c.port b && !(b == 5 && as.all fun x => lockWord x || x == aCTL_LOCK_BREAK) then 0xA2
  else if (as.zip c.data).any fun x => lockWord x.1 && (lockBlocks x.2).any (s.lockedTo c.port) then 0xA9
  else if !s.on SYS_BOOT_REPORT_complete && decide (b ≠ 0 ∧ b ≠ 3 ∧ b ≠ 4 ∧ b ≠ 5) then 0xA4
  else if s.minimal && (b == 11 || b == 14 || b == 18) then 0xA5
  else 0

/-- All checks of a command, the bound of a read last (R192, R226). -/
def State.checkCmd (s : State) (c : PortCmd) : Nat :=
  match c.header with
  | none => 0xA0
  | some h =>
    if c.err ≠ 0 then c.err
    else if hdrOp h = 0 then 0
    else
      let k := s.checkAccess c h
      if k ≠ 0 then k else if c.late then 0xAA else 0

/-- The range of a write takes its part in this cycle's conflicts (R191). -/
def State.noteWrite (s : State) (c : PortCmd) : State :=
  match c.header with
  | some h =>
    if (hdrOp h = 1 ∨ hdrOp h = 2) ∧ (c.err = 0 ∨ c.err = 0xAB) then
      s.withPorts { s.ports with
          writes := s.ports.writes ++ [(c.port, hdrAddr h, (hdrAddrs h).getLastD (hdrAddr h))] }
    else s
  | none => s

/-- The words of a write, in order, each in a SYS cycle of its own; the first cause of a target (R188, R704). -/
def State.writeWords (s : State) (p : Port) : List (Nat × Nat) → State × Nat
  | [] => (s, 0)
  | [w] => s.wordWrite p w.1 (BitVec.ofNat 32 w.2)
  | w :: x :: ws =>
    let r := s.wordWrite p w.1 (BitVec.ofNat 32 w.2)
    let t := r.1.sysCycle.writeWords p (x :: ws)
    (t.1, if r.2 ≠ 0 then r.2 else t.2)

/-- The words of a read, in order, each in a SYS cycle of its own (R188). -/
def State.readWords (s : State) (p : Port) : List Nat → State × List Nat
  | [] => (s, [])
  | [a] => (s.readEffect p a, [s.readHeld p a])
  | a :: b :: as =>
    let t := (s.readEffect p a).sysCycle.readWords p (b :: as)
    (t.1, s.readHeld p a :: t.2)

/-- A command that has passed its checks is applied: state, cause, data read. -/
def State.applyCmd (s : State) (c : PortCmd) (h : Nat) : State × Nat × List Nat :=
  match hdrOp h with
  | 0 => (s, 0, [])
  | 1 | 2 =>
    let t := s.writeWords c.port ((hdrAddrs h).zip c.data)
    (t.1, t.2, [])
  | _ =>
    let t := s.readWords c.port (hdrAddrs h)
    (t.1, 0, t.2)

/-! ### Responses -/

/-- The state of a target port. -/
def State.portSt (s : State) (p : Port) : PortSt := match p with | .spi => s.ports.spi | _ => s.ports.i2c

/-- The state of a target port replaced; the back-channel has none. -/
def State.setPort (s : State) (p : Port) (x : PortSt) : State :=
  match p with
  | .spi => s.withPorts { s.ports with spi := x }
  | .i2c => s.withPorts { s.ports with i2c := x }
  | .backChannel => s

/-- The status word of a port (R203). -/
def State.statusWord (s : State) (p : Port) : Nat :=
  let x := s.portSt p
  x.cause % 256 * 2 ^ 24 + x.count % 256 * 2 ^ 16 + 2 ^ 11 * b2n s.faultbLow + 2 ^ 10 * b2n s.irqbLow +
    2 ^ 9 * b2n s.minimal + 2 ^ 8 * s.get SYS_BOOT_REPORT_complete + 0x96

/-- The response of a read: 0x5A, the data and their CRC, or 0xE1 and the cause (R199, R200, R206). -/
def readResponse (cause : Nat) (data : List Nat) : List Byte :=
  if cause = 0 then
    let d := data.flatMap (beBytes 4)
    0x5A#8 :: (d ++ beBytes 2 (crc16 d))
  else [0xE1#8, BitVec.ofNat 8 cause]

/-- What the device sends during a frame: on SPI the status word as it stood at the start, then zeros but for a read's
response, zeros also for the bytes clocked past it; on I2C the response of a read that its repeated START reached (R199, R202,
R206, R208). The wait bytes before the response byte are left out. -/
def frameResponse (status : Nat) (c : PortCmd) (cause : Nat) (data : List Nat) : List Byte :=
  let h := c.header.getD 0
  let read := c.header.isSome && isRead (hdrOp h)
  match c.port with
  | .spi =>
    let sent := beBytes 4 status ++ List.replicate ((if c.header.isSome then hdrData h else 0) + 2) 0#8 ++
      if read then readResponse cause data else []
    sent ++ List.replicate (c.bytes - sent.length) 0#8
  | _ => if read && cause != 0xA0 then readResponse cause data else []

/-- A command has completed on SPI or I2C: count and cause, but for a valid NOP (R204). The write of a single register's row
leaves the bytes of the last frame as they are. -/
def State.completeTarget (s : State) (c : PortCmd) (status cause : Nat) (data : List Nat) : State :=
  let x := s.portSt c.port
  let op := (c.header.map hdrOp).getD 15
  let y := if cause = 0 ∧ op = 0 then x else { x with count := (x.count + 1) % 256, cause := if c.cut then 0xA0 else cause }
  s.setPort c.port (if c.single then y
    else { y with response := frameResponse status c cause data, reading := isRead op && !c.cut && cause != 0xA0 })

/-- The control response on ring 0 (R213). -/
def State.respond (s : State) (tag queue cause header : Nat) (data : List Nat) : State :=
  s.buildCounted 0 0 (wordBytes ([tag % 2 ^ 16 * 2 ^ 16 + queue % 16 * 2 ^ 12 + cause % 256, header % 2 ^ 32] ++ data))

/-- The reset of a write to SYS_RESET: at the end of the frame, over the back-channel once the response has been sent
(R202, R208, R214). -/
def State.askReset (s : State) (p : Port) : State :=
  match p with
  | .backChannel => s.withPorts { s.ports with resetAsked := some s.lastSeq }
  | _ => s.resetTo 3 0

/-- A command ends with its cause and data: its target port's status, or the control response (R204, R213). A row for a single
register carries no tag, so the back-channel answers it only before a reset, with a tag and queue left free (R214; DESIGN CHOICE,
notes/assumptions/15.md). -/
def State.answer (s : State) (c : PortCmd) (status cause : Nat) (data : List Nat) (resets : Bool) : State :=
  let h := c.header.getD 0
  match c.port with
  | .backChannel =>
    if !c.single then s.respond c.tag c.queue cause h data
    else if resets then
      let f := s.free
      f.2.respond (bits f.1 16 16) (bits f.1 12 4) cause h []
    else s
  | _ => s.completeTarget c status cause data

/-- A command is taken into service, applied or ended with its cause, and answered (R188, R192). A read cut short ends with 0xA0
all the same (R202, R208). -/
def State.serveCmd (s : State) (c : PortCmd) : State :=
  let status := s.statusWord c.port
  let cause := s.checkCmd c
  let h := c.header.getD 0
  let r : State × Nat × List Nat := if cause = 0 then (s.noteWrite c).applyCmd c h else (s.noteWrite c, cause, [])
  let last := if c.cut then 0xA0 else r.2.1
  let s1 := if 0xA0 ≤ last ∧ last ≤ 0xAB then r.1.rejected c.port last (c.header.map hdrAddr) else r.1
  let resets := decide (cause = 0 ∧ (hdrOp h = 1 ∨ hdrOp h = 2)) && ((hdrAddrs h).zip c.data).any asksReset
  let s2 := s1.answer c status r.2.1 r.2.2 resets
  if resets then s2.askReset c.port else s2

/-- The turn of a command that has reached the serializer: one that loses a conflict is discarded in the cycle of the winner's
service; any other waits a cycle where the serializer has taken one in this cycle, and a second command of one port has come in
a later cycle than the first (R188 to R191). -/
def State.serveTurn (s : State) (c : PortCmd) : State :=
  if s.checkCmd c = 0xA1 then s.serveCmd c
  else
    let t := if s.ports.taken.isEmpty then s else s.sysCycle
    let p := if s.ports.taken.contains c.port then { t.ports with taken := [], writes := [] } else t.ports
    (t.withPorts { p with taken := p.taken ++ [c.port] }).serveCmd c

/-! ### Inbound queues (R210 to R212, R507, R508) -/

/-- The inbound queue that the back-channel presents (R211). -/
def State.presented (s : State) : Option Nat :=
  let qs := (List.range 16).filter fun q => !(s.queued q).isEmpty
  let top := qs.foldl (fun a q => max a (s.queueDesc q).2.2) 0
  let eq := qs.filter fun q => (s.queueDesc q).2.2 == top
  match Sparse.find s.ports.turns top with
  | some last => turn last eq
  | none => eq.head?

/-- The commands of queue `q` replaced, with its fill shown. -/
def State.setQueue (s : State) (q : Nat) (cs : List QueuedCmd) : State :=
  (s.withPorts { s.ports with queues := Sparse.put [] s.ports.queues q cs }).put (RING_INQ_STAT_fill q) (min 127 cs.length)

/-- The head of queue `q` leaves: the queue has had its turn and remembers the tag; the last command under an old
descriptor brings in the new one (R211, R212, R508). -/
def State.takeQueued (s : State) (q : Nat) : State :=
  match s.queued q with
  | [] => s
  | c :: rest =>
    let s1 := (s.setQueue q rest : State)
    let s2 : State := s1.withPorts { s1.ports with turns := Sparse.insert s1.ports.turns (s.queueDesc q).2.2 q }
    let s3 := (s2.put (RING_INQ_STAT_last_tag q) c.tag).put (RING_INQ_STAT_tag_valid q) 1
    match Sparse.find s3.ports.underOld q with
    | some n =>
      if n ≤ 1 then
        (s3.withPorts { s3.ports with underOld := Sparse.erase s3.ports.underOld q }).loadQueue q
      else s3.withPorts { s3.ports with underOld := Sparse.insert s3.ports.underOld q (n - 1) }
    | none => s3

/-- Queue `q` takes new commands: it exists and no structure change removes it (R210, R508). -/
def State.queueOpen (s : State) (q : Nat) : Bool := (s.queueDesc q).1 && (s.queueGiven q).1

/-- A CMD message with a body of a fitting length: queued, or answered at once (R209, R210). -/
def State.cmdBody (s : State) (body : List Byte) : State :=
  let cw := leAt body 0 4
  let h := leAt body 4 4
  let q := bits cw 12 4
  let tag := bits cw 16 16
  let fits := decide (body.length = 8 + hdrData h)
  if bits cw 0 12 ≠ 0 ∨ !fits ∨ !s.queueOpen q then
    (s.rejected .backChannel 0xA0 (some (hdrAddr h))).respond tag q 0xA0 h []
  else if (s.queueDesc q).2.1 ≤ (s.queued q).length then
    let s1 := (s.bump (RING_INQ_STAT_refused q)).hwSet RING_IRQ_STAT_inq_full
    (s1.rejected .backChannel 0xA6 (some (hdrAddr h))).respond tag q 0xA6 h []
  else s.setQueue q (s.queued q ++ [{ tag := tag, header := h, data := (leWords body).drop 2 }])

/-- CMD: a command message on the aligned back-channel; a body length outside the message table is discarded (R533). -/
def execCmd (body : List Byte) (s : State) : Host.Outcome State Fault Refusal :=
  .next (if s.portsDead || !s.on LNK_STATUS_bc_aligned then s
  else if !messageFits 1 body.length then s.discardMessage 0x51 1
  else s.cmdBody body)

/-! ### Frames -/

/-- The device's own I2C address (R205). -/
def State.i2cAddress (s : State) : Nat := if s.supply.straps.addr then 0x37 else 0x36

/-- The port is alive and enabled. -/
def State.listens (s : State) (p : Port) : Bool :=
  !s.portsDead && (match p with
    | .backChannel => true
    | .spi => s.on CTL_PORT_CFG_spi_en
    | .i2c => s.on CTL_PORT_CFG_i2c_en)

/-- The command of a frame, none where the device does not answer it: a port that is off, another I2C address, or a queue
that is not the one presented. -/
def State.frameCmd (s : State) (f : PortFrame) : Option PortCmd :=
  match f with
  | .spi bs => if s.listens .spi then some (parseFrame .spi bs) else none
  | .i2c a bs => if s.listens .i2c && a == s.i2cAddress then some (parseFrame .i2c bs) else none
  | .queue q =>
    if s.listens .backChannel && s.presented == some q then (s.queued q).head?.map (s.parseQueued q) else none

/-- The frame leaves its queue where it came from one. -/
def State.takeFrame (s : State) (f : PortFrame) : State := match f with | .queue q => s.takeQueued q | _ => s

/-- A read of this frame has a bound that can pass by: any I2C read, an SPI read of tensor memory (R201, R207). -/
def PortCmd.bounded (c : PortCmd) : Bool :=
  decide (c.port = .i2c) || (decide (c.port = .spi) && (c.header.map fun h => hdrAddr h / tensorBase == 1).getD false)

/-- The command of a frame whose header reads an op that `want` selects, none for any other frame. -/
def State.wanted (s : State) (f : PortFrame) (want : Nat → Bool) : Option PortCmd :=
  (s.frameCmd f).filter fun c => (c.header.map (want ∘ hdrOp)).getD false

/-- A one-word write of a port by itself, as the serializer takes it: its checks, then its effect; no frame is answered. -/
def State.singleWrite (s : State) (p : Port) (a : Nat) (v : Word) : Option PortCmd :=
  if s.portsDead then none
  else some { port := p, header := some (2 ^ 28 + a / 4 % 2 ^ 22), data := [v.toNat], single := true }

/-- The command that a row brings to the serializer, as its frame or its operands give it (R188). -/
def State.reaches (s : State) : Instr → Option PortCmd
  | .cmdNop f => s.wanted f (· == 0)
  | .cmdWriteIncrementing f => s.wanted f (· == 1)
  | .cmdWriteFixed f => s.wanted f (· == 2)
  | .cmdReadIncrementing f => s.wanted f (· == 3)
  | .cmdReadFixed f => s.wanted f (· == 4)
  | .reservedOpFrame f => s.wanted f (fun op => decide (5 ≤ op))
  | .readNotServed f => ((s.wanted f isRead).filter PortCmd.bounded).map fun c => { c with late := true }
  | .registerWrite p a v => s.singleWrite p a v
  | .ctlLockTake p v => s.singleWrite p aCTL_LOCK_TAKE v
  | .ctlLockFree p v => s.singleWrite p aCTL_LOCK_FREE v
  | .ctlLockBreak p v => s.singleWrite p aCTL_LOCK_BREAK v
  | _ => none

/-- A command of a port of higher priority than `p` reaches the serializer later in the order of the queue, in this same cycle
(R190). -/
def State.higherComes (s : State) (p : Port) : Bool :=
  s.restOfCycle.any fun i =>
    match s.reaches i with
    | some c => decide (c.port.num < p.num) && !s.ports.taken.contains c.port
    | none => false

/-- The commands that wait for a port of higher priority have their turn once none comes, SPI before I2C (R190). -/
def State.serveHeld (s : State) : State :=
  [Port.spi, .i2c].foldl (fun s p =>
    if s.higherComes p then s
    else
      let mine := s.ports.held.filter fun c => c.port == p
      mine.foldl State.serveTurn (s.withPorts { s.ports with held := s.ports.held.filter fun c => c.port != p })) s

/-- A command reaches the serializer, which takes those of one cycle in the order of port priority (R189, R190). -/
def State.reach (s : State) (c : PortCmd) : State :=
  (if s.higherComes c.port then s.withPorts { s.ports with held := s.ports.held ++ [c] } else s.serveTurn c).serveHeld

/-- What a row brings reaches the serializer; its frame leaves its queue. -/
def State.serveRow (s : State) (i : Instr) (f : PortFrame) : State :=
  match s.reaches i with
  | none => s.serveHeld
  | some c => (s.takeFrame f).reach c

/-- CMD_NOP (R196, R204). -/
def execCmdNop (frame : PortFrame) (s : State) : Host.Outcome State Fault Refusal := .next (s.serveRow (.cmdNop frame) frame)

/-- CMD_WRITE_INCREMENTING (R188, R196). -/
def execCmdWriteIncrementing (frame : PortFrame) (s : State) : Host.Outcome State Fault Refusal :=
  .next (s.serveRow (.cmdWriteIncrementing frame) frame)

/-- CMD_WRITE_FIXED (R188, R196). -/
def execCmdWriteFixed (frame : PortFrame) (s : State) : Host.Outcome State Fault Refusal :=
  .next (s.serveRow (.cmdWriteFixed frame) frame)

/-- CMD_READ_INCREMENTING (R188, R196). -/
def execCmdReadIncrementing (frame : PortFrame) (s : State) : Host.Outcome State Fault Refusal :=
  .next (s.serveRow (.cmdReadIncrementing frame) frame)

/-- CMD_READ_FIXED (R188, R196). -/
def execCmdReadFixed (frame : PortFrame) (s : State) : Host.Outcome State Fault Refusal :=
  .next (s.serveRow (.cmdReadFixed frame) frame)

/-- RESERVED_OP_FRAME: op 5 to 15 ends with 0xA0 (R196). -/
def execReservedOpFrame (frame : PortFrame) (s : State) : Host.Outcome State Fault Refusal :=
  .next (s.serveRow (.reservedOpFrame frame) frame)

/-- READ_NOT_SERVED (R201, R207). -/
def execReadNotServed (frame : PortFrame) (s : State) : Host.Outcome State Fault Refusal :=
  .next (s.serveRow (.readNotServed frame) frame)

/-- The bytes hold a whole read command that the serializer has taken: on SPI once its CRC has been received and checked, on I2C
once its repeated START and address + R have come as well (R202, R207). -/
def readTaken (p : Port) (bs : List Byte) (restarted : Bool) : Bool :=
  let c := parseFrame p (if p = .i2c then bs else bs.take 6)
  decide (c.err = 0) && (c.header.map (isRead ∘ hdrOp)).getD false && (decide (p = .spi) || restarted)

/-- A frame of these bytes ended before its last defined byte, and no read of it was taken: a NOP or write with a byte missing, a
read (R202, R208); a reserved op has ended before (R196). -/
def cutShort (bs : List Byte) : Bool :=
  if bs.length < 4 then true
  else
    let h := beNat (bs.take 4)
    !decide (4 < hdrOp h) && (isRead (hdrOp h) || decide (bs.length < 6 + hdrData h))

/-- FRAME_TRUNCATED: the frame ends with 0xA0. A read in service has completed and its cause alone changes: one that a command
before this one has served, or one that is served here and then cut (R202, R204, R208). -/
def execFrameTruncated (port : Port) (bytes : List Byte) (restarted : Bool) (s : State) : Host.Outcome State Fault Refusal :=
  .next (
    let c : PortCmd := { parseFrame port bytes with err := 0xA0 }
    let x := s.portSt port
    let read := (c.header.map (isRead ∘ hdrOp)).getD false
    if port = .backChannel ∨ !s.listens port then s
    else if read && x.reading then
      (s.setPort port { x with cause := 0xA0, reading := false }).rejected port 0xA0 (c.header.map hdrAddr)
    else if readTaken port bytes restarted then s.reach { c with err := 0, cut := true }
    else if cutShort bytes then
      let sent := if port = .spi then (beBytes 4 (s.statusWord .spi) ++ List.replicate bytes.length 0#8).take bytes.length else []
      (s.rejected port 0xA0 (c.header.map hdrAddr)).setPort port
        { count := (x.count + 1) % 256, cause := 0xA0, response := sent }
    else s)

/-- I2C_STATUS: the status word and its CRC (R203, R206). -/
def execI2cStatus (s : State) : Host.Outcome State Fault Refusal :=
  .next (if s.listens .i2c then
    let w := beBytes 4 (s.statusWord .i2c)
    s.setPort .i2c { s.portSt .i2c with response := w ++ beBytes 2 (crc16 w) }
  else s)

/-! ### Single registers -/

/-- The row of a single register reaches the serializer as a one-word write of its port. -/
def State.serveSingle (s : State) (i : Instr) : State :=
  match s.reaches i with
  | none => s.serveHeld
  | some c => s.reach c

/-- REGISTER_WRITE: a port writes one word at a byte address (R5, R9, R188 to R195). -/
def execRegisterWrite (port : Port) (addr : Nat) (value : Word) (s : State) : Host.Outcome State Fault Refusal :=
  .next (s.serveSingle (.registerWrite port addr value))

/-- CTL_LOCK_TAKE (R216). -/
def execCtlLockTake (port : Port) (blocks : Word) (s : State) : Host.Outcome State Fault Refusal :=
  .next (s.serveSingle (.ctlLockTake port blocks))

/-- CTL_LOCK_FREE (R216). -/
def execCtlLockFree (port : Port) (blocks : Word) (s : State) : Host.Outcome State Fault Refusal :=
  .next (s.serveSingle (.ctlLockFree port blocks))

/-- CTL_LOCK_BREAK (R217). -/
def execCtlLockBreak (port : Port) (key : Word) (s : State) : Host.Outcome State Fault Refusal :=
  .next (s.serveSingle (.ctlLockBreak port key))

/-- IRQB_RETRIGGER. -/
def execIrqbRetrigger (s : State) : Host.Outcome State Fault Refusal := .next (if s.portsDead then s else s.retrigger)

/-- One cycle of the SYS clock with nothing waiting: the commands that reach the serializer from here on do so in a later cycle
than those before (R189 to R191). -/
def State.tick (s : State) : State :=
  let t := s.sysCycle
  (t.withPorts { t.ports with taken := [], writes := [] }).takeWaiting

end Sys2Proof.Machine
end

