-- ==== Sys2Proof/Machine/Scrub.lean ====
section
/-! DEFINITION. The slots of the Arcade's scrubber (R476 to R478) and of any scrubber whose deferral has run out (R34). -/

namespace Sys2Proof.Machine

/-- An error that the scrubber finds in the staging region while a load is in progress ends the load (0x3E). -/
def State.stageScrubbed (s : State) (line : Nat) : State :=
  match s.cfg.load with
  | some l => if line < stageBase ∨ (s.badIn line 64).isEmpty then s else (s.cfgReject 0x3E 0x3F 0).loadRejected l 0x3E
  | none => s

/-- The Arcade's scrubber takes a slot: in its next line, word `word` has `errorBits` bits in error. -/
def State.arcScrubSlot (s : State) (word errorBits : Nat) : State :=
  if s.portsDead then s else (s.arcScrubLine word errorBits).stageScrubbed s.arc.scrub.next

/-- ARC_SCRUB: one of the slots 4 to 7 of a round (R476). -/
def execArcScrub (word errorBits : Nat) (s : State) : Host.Outcome State Fault Refusal := .next (s.arcScrubSlot word errorBits)

/-- SCRUB_DEFERRAL_EXPIRY: a scrubber deferred for 4 096 SYS cycles takes exactly one slot; memory 0 is the Arcade, whose
scrubber reads the line of a cancelled write-back first (R34, R477, R651). -/
def execScrubDeferralExpiry (found : Scrub) (s : State) : Host.Outcome State Fault Refusal :=
  .next (if found.memory = 0 then s.arcScrubSlot found.word found.errorBits else s.scrubFound found)

end Sys2Proof.Machine
end

