-- ==== Sys2Proof/Machine/Dispatch.lean ====
section
/-! DEFINITION. One arm per command: the meaning each has. -/

namespace Sys2Proof.Machine

/-- The effect of a command on everything but the queue. -/
def exec (i : Instr) (s : State) : Host.Outcome State Fault Refusal :=
  match i with
  | .registerWrite port addr value => Sys2Proof.Machine.execRegisterWrite port addr value s
  | .coldReset mv => Sys2Proof.Machine.execColdReset mv s
  | .supplyFailureReset rail mv => Sys2Proof.Machine.execSupplyFailureReset rail s mv
  | .vddio1ResetLevel mv => Sys2Proof.Machine.execVddio1ResetLevel s mv
  | .supplyGlitch rail => Sys2Proof.Machine.execSupplyGlitch rail s
  | .brownoutEpisodeStart rail mv => Sys2Proof.Machine.execBrownoutEpisodeStart rail s mv
  | .brownoutEpisodeEnd rail mv => Sys2Proof.Machine.execBrownoutEpisodeEnd rail s mv
  | .brownoutLimitExpiry rail => Sys2Proof.Machine.execBrownoutLimitExpiry rail s
  | .resetbReset straps => Sys2Proof.Machine.execResetbReset straps s
  | .testenHigh high => Sys2Proof.Machine.execTestenHigh s high
  | .extest => Sys2Proof.Machine.execExtest s
  | .samplePreload pins preload straps => Sys2Proof.Machine.execSamplePreload pins preload straps s
  | .bypass opcode straps tdi => Sys2Proof.Machine.execBypass opcode straps s tdi
  | .testAccessPortReset straps => Sys2Proof.Machine.execTestAccessPortReset straps s
  | .softwareReset key => Sys2Proof.Machine.execSoftwareReset key s
  | .bootSequence env => Sys2Proof.Machine.execBootSequence env s
  | .flashBusyTimeout => Sys2Proof.Machine.execFlashBusyTimeout s
  | .referenceWaitTimeout => Sys2Proof.Machine.execReferenceWaitTimeout s
  | .lockTimeout syn => Sys2Proof.Machine.execLockTimeout syn s
  | .bootWatchdogExpiry => Sys2Proof.Machine.execBootWatchdogExpiry s
  | .bootRetry => Sys2Proof.Machine.execBootRetry s
  | .nvmUnlock key => Sys2Proof.Machine.execNvmUnlock key s
  | .nvmRead => Sys2Proof.Machine.execNvmRead s
  | .nvmProgram => Sys2Proof.Machine.execNvmProgram s
  | .nvmEraseSector => Sys2Proof.Machine.execNvmEraseSector s
  | .storeSeeds => Sys2Proof.Machine.execStoreSeeds s
  | .nvmCommandDone verified => Sys2Proof.Machine.execNvmCommandDone verified s
  | .synLock syn => Sys2Proof.Machine.execSynLock syn s
  | .lossOfLock syn => Sys2Proof.Machine.execLossOfLock syn s
  | .refLost => Sys2Proof.Machine.execRefLost s
  | .refReturn => Sys2Proof.Machine.execRefReturn s
  | .autoRelockAttempt syn => Sys2Proof.Machine.execAutoRelockAttempt syn s
  | .refMeasUpdate khz => Sys2Proof.Machine.execRefMeasUpdate khz s
  | .commit syn => Sys2Proof.Machine.execCommit syn s
  | .commitAtBeat syn => Sys2Proof.Machine.execCommitAtBeat syn s
  | .relock syn => Sys2Proof.Machine.execRelock syn s
  | .singleUpsetCorrected upset => Sys2Proof.Machine.execSingleUpsetCorrected upset s
  | .voteFailure addr inForce copies => Sys2Proof.Machine.execVoteFailure addr inForce copies s
  | .stageData value => Sys2Proof.Machine.execStageData value s
  | .startFull => Sys2Proof.Machine.execStartFull s
  | .startOverlay => Sys2Proof.Machine.execStartOverlay s
  | .abort => Sys2Proof.Machine.execAbort s
  | .loadChecksComplete errors patchOk => Sys2Proof.Machine.execLoadChecksComplete s errors patchOk
  | .cmdNop frame => Sys2Proof.Machine.execCmdNop frame s
  | .cmdWriteIncrementing frame => Sys2Proof.Machine.execCmdWriteIncrementing frame s
  | .cmdWriteFixed frame => Sys2Proof.Machine.execCmdWriteFixed frame s
  | .cmdReadIncrementing frame => Sys2Proof.Machine.execCmdReadIncrementing frame s
  | .cmdReadFixed frame => Sys2Proof.Machine.execCmdReadFixed frame s
  | .frameTruncated port bytes restarted => Sys2Proof.Machine.execFrameTruncated port bytes restarted s
  | .i2cStatus => Sys2Proof.Machine.execI2cStatus s
  | .cmd body => Sys2Proof.Machine.execCmd body s
  | .ctlLockTake port blocks => Sys2Proof.Machine.execCtlLockTake port blocks s
  | .ctlLockFree port blocks => Sys2Proof.Machine.execCtlLockFree port blocks s
  | .ctlLockBreak port key => Sys2Proof.Machine.execCtlLockBreak port key s
  | .irqbRetrigger => Sys2Proof.Machine.execIrqbRetrigger s
  | .runTakeUp => Sys2Proof.Machine.execRunTakeUp s
  | .runStop => Sys2Proof.Machine.execRunStop s
  | .readoutStart => Sys2Proof.Machine.execReadoutStart s
  | .readoutEnd => Sys2Proof.Machine.execReadoutEnd s
  | .rowSlot data => Sys2Proof.Machine.execRowSlot data s
  | .subPulse row => Sys2Proof.Machine.execSubPulse row s
  | .globalIntegrationStart => Sys2Proof.Machine.execGlobalIntegrationStart s
  | .transferT1 => Sys2Proof.Machine.execTransferT1 s
  | .transferT2 => Sys2Proof.Machine.execTransferT2 s
  | .triggerPinEdge pin rising eighth since => Sys2Proof.Machine.execTriggerPinEdge pin rising eighth since s
  | .badgerSelfTest reported => Sys2Proof.Machine.execBadgerSelfTest reported s
  | .badgerMismatch bit => Sys2Proof.Machine.execBadgerMismatch bit s
  | .rdoRetire value => Sys2Proof.Machine.execRdoRetire value s
  | .calSnapshot => Sys2Proof.Machine.execCalSnapshot s
  | .windowRowAvailable window row errors => Sys2Proof.Machine.execWindowRowAvailable window row errors s
  | .tapComplete prog tap => Sys2Proof.Machine.execTapComplete prog tap s
  | .runStart prog => Sys2Proof.Machine.execRunStart prog s
  | .runDeadline prog => Sys2Proof.Machine.execRunDeadline prog s
  | .npcNop prog => Sys2Proof.Machine.execNpcNop prog s
  | .setmode prog => Sys2Proof.Machine.execSetmode prog s
  | .salu prog => Sys2Proof.Machine.execSalu prog s
  | .salui prog => Sys2Proof.Machine.execSalui prog s
  | .get prog => Sys2Proof.Machine.execGet prog s
  | .ld prog => Sys2Proof.Machine.execLd prog s
  | .st prog => Sys2Proof.Machine.execSt prog s
  | .loop prog => Sys2Proof.Machine.execLoop prog s
  | .br prog => Sys2Proof.Machine.execBr prog s
  | .npcEnd prog => Sys2Proof.Machine.execNpcEnd prog s
  | .mmul prog => Sys2Proof.Machine.execMmul prog s
  | .post prog => Sys2Proof.Machine.execPost prog s
  | .discard prog => Sys2Proof.Machine.execDiscard prog s
  | .tload prog => Sys2Proof.Machine.execTload prog s
  | .emit prog => Sys2Proof.Machine.execEmit prog s
  | .waitev prog => Sys2Proof.Machine.execWaitev prog s
  | .sigev prog => Sys2Proof.Machine.execSigev prog s
  | .resume => Sys2Proof.Machine.execResume s
  | .npcDbgEnd => Sys2Proof.Machine.execNpcDbgEnd s
  | .tensorWrite addr value => Sys2Proof.Machine.execTensorWrite addr value s
  | .triggerUnitFire unit => Sys2Proof.Machine.execTriggerUnitFire unit s
  | .forcedTrigger unit => Sys2Proof.Machine.execForcedTrigger unit s
  | .holdoffExpiry unit => Sys2Proof.Machine.execHoldoffExpiry unit s
  | .triggerUnitArm unit value => Sys2Proof.Machine.execTriggerUnitArm unit value s
  | .triggerUnitConfigWrite unit reg value => Sys2Proof.Machine.execTriggerUnitConfigWrite unit reg value s
  | .directRouteRequest route => Sys2Proof.Machine.execDirectRouteRequest route s
  | .startAGlobalExposure since => Sys2Proof.Machine.execStartAGlobalExposure since s
  | .startAFrame since => Sys2Proof.Machine.execStartAFrame since s
  | .freezeTheArcade => Sys2Proof.Machine.execFreezeTheArcade s
  | .rearmTheArcadeRecorder => Sys2Proof.Machine.execRearmTheArcadeRecorder s
  | .startAConversion core => Sys2Proof.Machine.execStartAConversion core s
  | .markMetadata mark => Sys2Proof.Machine.execMarkMetadata mark s
  | .raiseInterrupt bit => Sys2Proof.Machine.execRaiseInterrupt bit s
  | .driveSyncFire byTask => Sys2Proof.Machine.execDriveSyncFire byTask s
  | .driveSyncArm => Sys2Proof.Machine.execDriveSyncArm s
  | .releaseSyncArm => Sys2Proof.Machine.execReleaseSyncArm s
  | .capture => Sys2Proof.Machine.execCapture s
  | .signalPinEngine engine => Sys2Proof.Machine.execSignalPinEngine engine s
  | .setComputeFlag flag => Sys2Proof.Machine.execSetComputeFlag flag s
  | .armTriggerUnit unit => Sys2Proof.Machine.execArmTriggerUnit unit s
  | .snapshotTheEventCounters byTask => Sys2Proof.Machine.execSnapshotTheEventCounters byTask s
  | .appendASoftwareEntry port value => Sys2Proof.Machine.execAppendASoftwareEntry port value s
  | .timeSet time elapsed => Sys2Proof.Machine.execTimeSet time elapsed s
  | .timeAdd offset elapsed => Sys2Proof.Machine.execTimeAdd offset elapsed s
  | .timeRate inc => Sys2Proof.Machine.execTimeRate inc s
  | .timeCtrlSet => Sys2Proof.Machine.execTimeCtrlSet s
  | .timeCtrlAdd => Sys2Proof.Machine.execTimeCtrlAdd s
  | .ppsArm => Sys2Proof.Machine.execPpsArm s
  | .ppsLoad eighth elapsed => Sys2Proof.Machine.execPpsLoad eighth elapsed s
  | .timeNowCapture port => Sys2Proof.Machine.execTimeNowCapture port s
  | .periodicTimer timer => Sys2Proof.Machine.execPeriodicTimer timer s
  | .syncArming low eighth => Sys2Proof.Machine.execSyncArming low eighth s
  | .syncFireEdge eighth => Sys2Proof.Machine.execSyncFireEdge eighth s
  | .syncFireRise width eighth => Sys2Proof.Machine.execSyncFireRise width eighth s
  | .firePulseEnd => Sys2Proof.Machine.execFirePulseEnd s
  | .badWidthTimeout => Sys2Proof.Machine.execBadWidthTimeout s
  | .compensatedRelease since => Sys2Proof.Machine.execCompensatedRelease since s
  | .autoRelease => Sys2Proof.Machine.execAutoRelease s
  | .arcRearm region => Sys2Proof.Machine.execArcRearm region s
  | .arcFreeze region => Sys2Proof.Machine.execArcFreeze region s
  | .arcReplay region => Sys2Proof.Machine.execArcReplay region s
  | .arcEndPass region => Sys2Proof.Machine.execArcEndPass region s
  | .arcFrameComplete region => Sys2Proof.Machine.execArcFrameComplete region s
  | .replayFrameOffer region errors => Sys2Proof.Machine.execReplayFrameOffer region s errors
  | .arcHostFetch line => Sys2Proof.Machine.execArcHostFetch line s
  | .arcHostFetchDone errors => Sys2Proof.Machine.execArcHostFetchDone s errors
  | .arcScrub word errorBits => Sys2Proof.Machine.execArcScrub word errorBits s
  | .sramScrub found => Sys2Proof.Machine.execSramScrub found s
  | .scrubDeferralExpiry found => Sys2Proof.Machine.execScrubDeferralExpiry found s
  | .unitHandedToStriper ahead => Sys2Proof.Machine.execUnitHandedToStriper s ahead
  | .marker => Sys2Proof.Machine.execMarker s
  | .ack lsn crc => Sys2Proof.Machine.execAck lsn s crc
  | .nak lsn crc => Sys2Proof.Machine.execNak lsn s crc
  | .replayTimeout => Sys2Proof.Machine.execReplayTimeout s
  | .bcAlignment symbols => Sys2Proof.Machine.execBcAlignment symbols s
  | .bcSilenceTimeout => Sys2Proof.Machine.execBcSilenceTimeout s
  | .bcMessageDiscarded message codeError => Sys2Proof.Machine.execBcMessageDiscarded message codeError s
  | .caps body => Sys2Proof.Machine.execCaps body s
  | .stepResult body => Sys2Proof.Machine.execStepResult body s
  | .pm body => Sys2Proof.Machine.execPm body s
  | .laneReport body => Sys2Proof.Machine.execLaneReport body s
  | .echo body elapsed => Sys2Proof.Machine.execEcho body elapsed s
  | .renegotiate => Sys2Proof.Machine.execRenegotiate s
  | .linkEnableWrite en => Sys2Proof.Machine.execLinkEnableWrite en s
  | .stepDrained => Sys2Proof.Machine.execStepDrained s
  | .stepDrainTimeout => Sys2Proof.Machine.execStepDrainTimeout s
  | .stepResultTimeout => Sys2Proof.Machine.execStepResultTimeout s
  | .wakePattern => Sys2Proof.Machine.execWakePattern s
  | .wakeOnData => Sys2Proof.Machine.execWakeOnData s
  | .txDelayLineLoss lane => Sys2Proof.Machine.execTxDelayLineLoss lane s
  | .probeStart lane => Sys2Proof.Machine.execProbeStart lane s
  | .probeEnd lane => Sys2Proof.Machine.execProbeEnd lane s
  | .restore => Sys2Proof.Machine.execRestore s
  | .hkStart core => Sys2Proof.Machine.execHkStart core s
  | .hkStop core => Sys2Proof.Machine.execHkStop core s
  | .hkPinStart core => Sys2Proof.Machine.execHkPinStart core s
  | .hkConversionStart core => Sys2Proof.Machine.execHkConversionStart core s
  | .hkPeriodicGrid core => Sys2Proof.Machine.execHkPeriodicGrid core s
  | .hkResult core decision => Sys2Proof.Machine.execHkResult core decision s
  | .hkPowerDown core => Sys2Proof.Machine.execHkPowerDown core s
  | .hkCalDue core decision => Sys2Proof.Machine.execHkCalDue core decision s
  | .hkCalForced core decision => Sys2Proof.Machine.execHkCalForced core decision s
  | .monitorPacketAge => Sys2Proof.Machine.execMonitorPacketAge s
  | .interleaveChange => Sys2Proof.Machine.execInterleaveChange s
  | .pioStep engine pins => Sys2Proof.Machine.execPioStep engine pins s
  | .pioNop engine => Sys2Proof.Machine.execPioNop engine s
  | .pioBr engine => Sys2Proof.Machine.execPioBr engine s
  | .await engine => Sys2Proof.Machine.execAwait engine s
  | .rep engine => Sys2Proof.Machine.execRep engine s
  | .setv engine => Sys2Proof.Machine.execSetv engine s
  | .move engine => Sys2Proof.Machine.execMove engine s
  | .shift engine => Sys2Proof.Machine.execShift engine s
  | .xchg engine => Sys2Proof.Machine.execXchg engine s
  | .pioLoad engine => Sys2Proof.Machine.execPioLoad engine s
  | .store engine => Sys2Proof.Machine.execStore engine s
  | .flag engine => Sys2Proof.Machine.execFlag engine s
  | .addv engine => Sys2Proof.Machine.execAddv engine s
  | .stallEnd engine pins => Sys2Proof.Machine.execStallEnd engine pins s
  | .vectoredJump engine pins => Sys2Proof.Machine.execVectoredJump engine pins s
  | .pioRun mask => Sys2Proof.Machine.execPioRun mask s
  | .pioRestart mask => Sys2Proof.Machine.execPioRestart mask s
  | .pioSync mask => Sys2Proof.Machine.execPioSync mask s
  | .pioPcWrite engine value => Sys2Proof.Machine.execPioPcWrite engine value s
  | .inject engine word => Sys2Proof.Machine.execInject engine word s
  | .pioTxfWrite engine value => Sys2Proof.Machine.execPioTxfWrite engine value s
  | .pioRxfRead engine => Sys2Proof.Machine.execPioRxfRead engine s
  | .pwrCmd value => Sys2Proof.Machine.execPwrCmd value s
  | .streamToReady => Sys2Proof.Machine.execStreamToReady s
  | .readyToStandby => Sys2Proof.Machine.execReadyToStandby s
  | .standbyToSleep => Sys2Proof.Machine.execStandbyToSleep s
  | .sleepToStandby => Sys2Proof.Machine.execSleepToStandby s
  | .standbyToReady => Sys2Proof.Machine.execStandbyToReady s
  | .readyToStream => Sys2Proof.Machine.execReadyToStream s
  | .enterOff => Sys2Proof.Machine.execEnterOff s
  | .trigWake pin rising => Sys2Proof.Machine.execTrigWake pin rising s
  | .scsbWake => Sys2Proof.Machine.execScsbWake s
  | .blockEnableWrite value => Sys2Proof.Machine.execBlockEnableWrite value s
  | .faultbHalfPeriod => Sys2Proof.Machine.execFaultbHalfPeriod s
  | .thermalStale => Sys2Proof.Machine.execThermalStale s
  | .eventLogAge => Sys2Proof.Machine.execEventLogAge s
  | .faultbTest on => Sys2Proof.Machine.execFaultbTest on s
  | .cntClear mask => Sys2Proof.Machine.execCntClear mask s
  | .counterLiveCapture port counter => Sys2Proof.Machine.execCounterLiveCapture port counter s
  | .resetbLow => Sys2Proof.Machine.execResetbLow s
  | .reservedOpFrame frame => Sys2Proof.Machine.execReservedOpFrame frame s
  | .illegalInstruction prog => Sys2Proof.Machine.execIllegalInstruction prog s
  | .nvmCmdReservedOp op => Sys2Proof.Machine.execNvmCmdReservedOp op s
  | .arcCmdReservedOp op region => Sys2Proof.Machine.execArcCmdReservedOp op region s
  | .interjectionDiscarded lsn crc codeError => Sys2Proof.Machine.execInterjectionDiscarded s lsn crc codeError
  | .pmDrainTimeout => Sys2Proof.Machine.execPmDrainTimeout s
  | .readNotServed frame => Sys2Proof.Machine.execReadNotServed frame s
  | .slewAbsorbed => Sys2Proof.Machine.execSlewAbsorbed s

end Sys2Proof.Machine
end

