-- ==== Sys2Proof/Safety.lean ====
section
/-! DEFINITION. What a safe run is, in the terms of the statements: the canonical form of the tables, and what a command
leaves alone. -/

namespace Sys2Proof.Machine

/-- The register file, the values in force and the memories are in canonical form. -/
def State.wf (s : State) : Bool :=
  Sparse.wf regReset s.regs && Sparse.wf regReset s.live &&
  Sparse.wf (fun _ => Config.memFill) s.arcadeMem && Sparse.wf (fun _ => Config.memFill) s.tensorMem

/-- The numbers of like things that the device has: eight trigger units, 24 banks. -/
def State.shaped (s : State) : Bool := s.evf.units.length == 8 && s.rdo.banks.length == 24

/-- The parts of the state beside the register file. -/
inductive Part where
  | cycle | fresh | live | heldOld | freshBits | supply | clk | cfg | boot | nvm
  | ports | pwr | evf | time | cnt | safe | rings | link | sht | rdo
  | pipe | wins | arc | npc | hk | pio | arcadeMem | tensorMem | pending
deriving DecidableEq, Repr

/-- Part `p` of `t` is that of `s`. -/
def Part.same (p : Part) (s t : State) : Prop :=
  match p with
  | .cycle => t.cycle = s.cycle
  | .fresh => t.fresh = s.fresh
  | .live => t.live = s.live
  | .heldOld => t.heldOld = s.heldOld
  | .freshBits => t.freshBits = s.freshBits
  | .supply => t.supply = s.supply
  | .clk => t.clk = s.clk
  | .cfg => t.cfg = s.cfg
  | .boot => t.boot = s.boot
  | .nvm => t.nvm = s.nvm
  | .ports => t.ports = s.ports
  | .pwr => t.pwr = s.pwr
  | .evf => t.evf = s.evf
  | .time => t.time = s.time
  | .cnt => t.cnt = s.cnt
  | .safe => t.safe = s.safe
  | .rings => t.rings = s.rings
  | .link => t.link = s.link
  | .sht => t.sht = s.sht
  | .rdo => t.rdo = s.rdo
  | .pipe => t.pipe = s.pipe
  | .wins => t.wins = s.wins
  | .arc => t.arc = s.arc
  | .npc => t.npc = s.npc
  | .hk => t.hk = s.hk
  | .pio => t.pio = s.pio
  | .arcadeMem => t.arcadeMem = s.arcadeMem
  | .tensorMem => t.tensorMem = s.tensorMem
  | .pending => t.pending = s.pending

/-- `t` is `s` but for the listed parts and the registers of the listed blocks, a block given by the upper bits of its
addresses (R194). -/
def State.keeps (s t : State) (parts : List Part) (blocks : List Nat) : Prop :=
  (∀ p, p ∉ parts → p.same s t) ∧ ∀ a, a / 0x10000 ∉ blocks → t.reg a = s.reg a

/-- NPC runs, and the running run `r` of program `p` executes the legal word `w` at its pc, whose opcode is `op`: instruction
memory holds no error there. -/
def State.executes (s : State) (p op w : Nat) (r : Run) : Prop :=
  s.npcClock = true ∧ s.runIn? p .running = some r ∧ codeWord r.body r.pc = w ∧ bits w 58 6 = op ∧ wordIllegal w = false ∧
    s.badAt 3 (s.codeBase p + 8 * r.pc) 8 = none

/-- A byte as int8 or as uint8. -/
def byteAs (signed : Bool) (b : Byte) : Int := if signed then b.toInt else (b.toNat : Int)

/-- Command `c` completes: program `p` goes on as `q`, and tensor memory is `mem`. A pc past the code is an exception
instead (R395). -/
def State.runGoesOn (s : State) (c : Instr) (p : Nat) (q : Run) (mem : List Host.Cell) : Prop :=
  q.pc < q.plan.words → ∃ t, exec c s = .next t ∧ t.runIn? p .running = some q ∧ t.tensorMem = mem

/-- No task request that reaches MEM in this cycle waits behind a command of the Arcade (R468). -/
def State.arcAlone (s : State) : Prop :=
  s.pending.contains .freezeTheArcade = false ∧ s.pending.contains .rearmTheArcadeRecorder = false

/-- No write of this cycle waits or was taken at the serializer, and none of a higher priority than port `p` comes in it:
the write that port `p` makes is the first served (R190, R191). -/
def State.serializerFree (s : State) (p : Port) : Prop :=
  s.ports.writes = [] ∧ s.ports.taken = [] ∧ s.ports.held = [] ∧ s.ports.waiting = [] ∧ s.higherComes p = false

/-- Engine `n`, which is `e`, runs and executes the latched word `w` with opcode `op`, for the last time where it is
repeated. -/
def State.pioAt (s : State) (n op w : Nat) (e : PioEng) : Prop :=
  s.pioHas n op = some w ∧ s.eng n = e ∧ e.latched = some (w, false) ∧ e.stall = 0 ∧ e.rep ≤ 1

/-- Command `c` completes the instruction `w` of engine `n`: the engine is `e` but for what completing resets, and its pc
is the next one. -/
def State.pioCompletes (s : State) (c : Instr) (n w : Nat) (e : PioEng) : Prop :=
  ∃ t, exec c s = .next t ∧ t.eng n = { e.finished (s.dwellOf n w) with rep := 0, dwellOwn := false } ∧
    t.get (PIO_ENG_PC_pc n) = s.pcNext n % 64

/-- Ring 0 of `t` holds one packet more than that of `s`: a link-management packet with this payload (R535). -/
def State.manages (s t : State) (payload : List Byte) : Prop :=
  ∃ p, (t.ring 0).spool = (s.ring 0).spool ++ [p] ∧ p.ring = 0 ∧ p.type = 9 ∧ p.payload = payload

/-- `t` is `s` after a reset from `source`: nothing holds it, and everything outside the always-on island, the NVM, the
test access port and the straps is as at reset (R143, R187). -/
def State.restarted (s t : State) (source : Nat) : Prop :=
  t.boot.phase = .released ∧ t.boot.source = source ∧ t.get SYS_BOOT_REPORT_reset_src = source ∧
    (∀ a, a ∉ [aSYS_BOOT_REPORT, aSYS_BOOT_PREV, aPWR_WAKE, aPWR_WAKE_SRC] → t.reg a = regReset a) ∧
    t.live = [] ∧ t.cfg = {} ∧ t.clk = {} ∧ t.pwr = {} ∧ t.evf = {} ∧ t.time = {} ∧ t.cnt = {} ∧ t.safe = {} ∧
    t.rings = [] ∧ t.link = {} ∧ t.sht = {} ∧ t.rdo = {} ∧ t.pipe = {} ∧ t.wins = [] ∧ t.arc = {} ∧ t.npc = {} ∧
    t.hk = {} ∧ t.pio = {} ∧ t.tensorMem = [] ∧ t.pending = s.pending ∧
    t.arcadeMem = (if source = 5 then s.arcadeMem else [])

/-- Block numbers, as State.keeps takes them (R194). -/
def bSYS : Nat := 0x00
def bCLK : Nat := 0x01
def bPWR : Nat := 0x02
def bCFG : Nat := 0x03
def bNVM : Nat := 0x04
def bCTL : Nat := 0x05
def bSHT : Nat := 0x10
def bWIN : Nat := 0x11
def bRDO : Nat := 0x12
def bCAL : Nat := 0x13
def bPIPE : Nat := 0x14
def bNPC : Nat := 0x20
def bEVF : Nat := 0x30
def bTIME : Nat := 0x31
def bARC : Nat := 0x32
def bRING : Nat := 0x33
def bLNK : Nat := 0x34
def bHKA : Nat := 0x35
def bPIO : Nat := 0x36
def bSAFE : Nat := 0x37
def bCNT : Nat := 0x38

/-- A frame of SPI or I2C: a header, the words of a write, and their CRC (R196 to R198). -/
def frameOf (h : Nat) (ws : List Nat) : List Byte :=
  let d := beBytes 4 h ++ ws.flatMap (beBytes 4)
  d ++ beBytes 2 (crc16 d)

/-- What a command may change: parts of the state, and blocks of registers, with none where the statement does not bound them. -/
abbrev Footprint := List Part × Option (List Nat)

/-- Every part but the queue, which no command changes. -/
def Footprint.device : Footprint :=
  ([.cycle, .fresh, .live, .heldOld, .freshBits, .supply, .clk, .cfg, .boot, .nvm, .ports, .pwr, .evf, .time, .cnt, .safe, .rings,
    .link, .sht, .rdo, .pipe, .wins, .arc, .npc, .hk, .pio, .arcadeMem, .tensorMem], none)

/-- `t` is `s` but for a footprint. -/
def State.within (s t : State) (f : Footprint) : Prop :=
  (∀ p, p ∉ f.1 → p.same s t) ∧ ∀ bs, f.2 = some bs → ∀ a, a / 0x10000 ∉ bs → t.reg a = s.reg a

end Sys2Proof.Machine

namespace Sys2Proof

open Sys2Proof.Machine

/-- What the commands of supplies, boot, NVM, clocks, loads, ports, power and health touch. -/
def Instr.controlFootprint : Instr → Option Footprint
  | .registerWrite _ _ _ | .coldReset _ | .supplyFailureReset _ _ | .resetbReset _ | .testenHigh _ | .extest
  | .samplePreload _ _ _ | .bypass _ _ _ | .testAccessPortReset _ | .softwareReset _ | .bootSequence _
  | .flashBusyTimeout | .referenceWaitTimeout | .lockTimeout _ | .bootWatchdogExpiry | .bootRetry | .abort
  | .loadChecksComplete _ _ | .frameTruncated _ _ _ | .cmdNop _ | .cmdWriteIncrementing _ | .cmdWriteFixed _ | .cmdReadIncrementing _
  | .cmdReadFixed _ | .ctlLockTake _ _ | .ctlLockFree _ _ | .ctlLockBreak _ _ | .enterOff | .scsbWake | .resetbLow
  | .reservedOpFrame _ | .readNotServed _ => some .device
  | .vddio1ResetLevel _ => some ([.cnt, .evf, .freshBits, .pio, .rings, .safe], some [bCNT, bEVF, bPIO, bRING, bSAFE])
  | .supplyGlitch _ => some ([.cnt, .freshBits], some [bCNT])
  | .brownoutEpisodeStart _ _ =>
    some ([.cnt, .evf, .freshBits, .nvm, .rings, .safe, .sht, .supply], some [bCNT, bEVF, bRING, bSAFE])
  | .brownoutEpisodeEnd _ _ =>
    some ([.cnt, .evf, .freshBits, .hk, .rings, .safe, .supply], some [bCNT, bEVF, bRING, bSAFE])
  | .brownoutLimitExpiry _ => some ([.freshBits, .rings, .safe, .supply], some [bRING, bSAFE])
  | .nvmUnlock _ => some ([], some [bNVM])
  | .nvmRead | .nvmProgram | .nvmEraseSector | .storeSeeds | .nvmCmdReservedOp _ =>
    some ([.freshBits, .nvm], some [bNVM])
  | .nvmCommandDone _ => some ([.fresh, .freshBits, .nvm], some [bCFG, bNVM])
  | .synLock _ =>
    some ([.clk, .cnt, .evf, .freshBits, .hk, .link, .live, .safe], some [bCLK, bCNT, bEVF, bHKA, bLNK, bSAFE, bTIME])
  | .lossOfLock _ | .refLost =>
    some ([.clk, .cnt, .evf, .freshBits, .hk, .link, .npc, .nvm, .rdo, .rings, .safe, .sht, .wins], none)
  | .refReturn | .commit _ => some ([.clk], some [bCLK])
  | .autoRelockAttempt _ => some ([.clk], some [])
  | .refMeasUpdate _ =>
    some ([.clk, .cnt, .evf, .freshBits, .hk, .link, .live, .rings, .safe], some [bCLK, bCNT, bEVF, bHKA, bLNK, bRING, bSAFE, bTIME])
  | .commitAtBeat _ => some ([.clk, .freshBits, .hk, .live], some [bCLK, bHKA, bSAFE])
  | .relock _ =>
    some ([.clk, .cnt, .evf, .freshBits, .hk, .link, .rings, .safe], some [bCLK, bCNT, bEVF, bHKA, bLNK, bRING, bSAFE, bTIME])
  | .singleUpsetCorrected _ => some ([.cnt, .freshBits, .live], some [bCLK, bCNT, bEVF])
  | .voteFailure _ _ _ => some ([.clk, .freshBits, .live, .rings, .safe], some [bCLK, bEVF, bRING, bSAFE])
  | .stageData _ => some ([.arc, .arcadeMem, .cfg, .freshBits, .rings, .safe], some [bCFG, bRING, bSAFE])
  | .startFull | .startOverlay => some ([.boot, .cfg, .freshBits, .rings, .safe], some [bCFG, bRING, bSAFE])
  | .i2cStatus | .irqbRetrigger => some ([.ports], some [])
  | .cmd _ => some ([.cnt, .freshBits, .link, .ports, .rings, .safe], some [bCNT, bCTL, bLNK, bRING, bSAFE])
  | .pwrCmd _ | .trigWake _ _ =>
    some ([.clk, .cnt, .evf, .freshBits, .hk, .link, .nvm, .pwr, .rdo, .rings, .safe, .sht],
      some [bCAL, bCLK, bCNT, bEVF, bHKA, bLNK, bPWR, bRDO, bRING, bSAFE, bSHT, bTIME])
  | .streamToReady | .readyToStandby | .standbyToSleep | .sleepToStandby | .standbyToReady | .readyToStream =>
    some ([.clk, .cnt, .evf, .freshBits, .hk, .link, .nvm, .pwr, .rdo, .rings, .safe, .sht],
      some [bCAL, bCLK, bCNT, bEVF, bHKA, bLNK, bPIO, bPWR, bRDO, bRING, bSAFE, bSHT, bTIME])
  | .blockEnableWrite _ => some ([.heldOld, .hk], some [bHKA, bPIO, bPWR])
  | .faultbHalfPeriod => some ([.safe], some [])
  | .thermalStale | .eventLogAge | .faultbTest _ => some ([.freshBits, .rings, .safe], some [bRING, bSAFE])
  | .cntClear _ => some ([.cnt], some [bCNT])
  | .counterLiveCapture _ _ => some ([.cnt], some [])
  | .pmDrainTimeout => some ([.freshBits, .link, .pwr, .rings, .safe], some [bLNK, bPWR, bRING, bSAFE])
  | _ => none

/-- What the commands of the array, the readout, near-pixel compute and the Arcade touch. -/
def Instr.imagerFootprint : Instr → Option Footprint
  | .runTakeUp => some ([.freshBits, .live, .pipe, .sht], some [bPIPE, bRING, bSHT, bWIN])
  | .runStop => some ([.freshBits, .nvm, .rdo, .rings, .safe, .sht], some [bCAL, bRDO, bRING, bSAFE, bSHT])
  | .readoutStart => some ([.cnt, .evf, .freshBits, .live, .npc, .pipe, .rdo, .safe, .sht, .time], none)
  | .readoutEnd => some .device
  | .rowSlot _ => some ([.cnt, .evf, .fresh, .freshBits, .nvm, .pipe, .rdo, .rings, .safe, .sht], none)
  | .subPulse _ | .transferT1 | .transferT2 => some ([.sht], some [])
  | .globalIntegrationStart => some ([.cnt, .evf, .freshBits, .sht], some [bCNT])
  | .triggerPinEdge _ _ _ _ => some ([.cnt, .evf, .freshBits, .sht], some [bCNT, bEVF, bSHT])
  | .badgerSelfTest _ => some ([.freshBits, .rings, .safe], some [bRING, bSAFE])
  | .badgerMismatch _ => some ([.cnt, .freshBits, .rings, .safe], some [bCNT, bRING, bSAFE])
  | .rdoRetire _ => some ([.freshBits, .rdo, .rings, .safe], some [bCAL, bRDO, bRING, bSAFE])
  | .calSnapshot => some ([.freshBits, .rdo], some [bCAL])
  | .windowRowAvailable _ _ _ => some ([.arc, .arcadeMem, .cnt, .fresh, .freshBits, .npc, .pipe, .rings, .safe, .tensorMem, .wins], none)
  | .tapComplete _ _ => some ([.npc], some [bNPC])
  | .runStart _ | .runDeadline _ | .resume =>
    some ([.cnt, .fresh, .freshBits, .npc, .rings, .safe, .tensorMem], some [bCNT, bNPC, bRING])
  | .npcNop _ | .setmode _ | .salu _ | .salui _ | .get _ | .ld _ | .st _ | .loop _ | .br _ | .npcEnd _ | .mmul _
  | .post _ | .discard _ | .tload _ | .emit _ | .waitev _ | .sigev _ | .illegalInstruction _ =>
    some ([.cnt, .evf, .fresh, .freshBits, .npc, .rings, .safe, .tensorMem], some [bCNT, bNPC, bRING, bSAFE])
  | .npcDbgEnd => some ([.cnt, .fresh, .freshBits, .npc, .rings, .safe, .tensorMem], some [bCNT, bNPC, bRING, bSAFE])
  | .tensorWrite _ _ => some ([.safe, .tensorMem], some [])
  | .arcFrameComplete _ => some ([.arc, .arcadeMem, .freshBits], some [bARC])
  | .replayFrameOffer _ _ => some ([.arc, .arcadeMem, .cnt, .fresh, .freshBits, .rings, .safe], none)
  | .arcHostFetch _ => some ([.arc, .heldOld], some [bARC])
  | .arcHostFetchDone _ => some ([.arc, .arcadeMem, .cnt, .fresh, .freshBits, .safe], some [bARC, bCNT, bSAFE])
  | .arcScrub _ _ | .scrubDeferralExpiry _ => some .device
  | .sramScrub _ => some ([.cnt, .freshBits, .link, .rings, .safe], some [bCNT, bRING, bSAFE])
  | .arcRearm _ | .arcFreeze _ | .arcReplay _ | .arcEndPass _ | .arcCmdReservedOp _ _ =>
    some ([.arc, .cnt, .evf, .freshBits, .rings, .safe], some [bARC, bCNT, bEVF, bRING, bSAFE])
  | _ => none

/-- What the commands of Crossroads, the time base, the link, housekeeping and the pin engines touch. -/
def Instr.edgeFootprint : Instr → Option Footprint
  | .triggerUnitFire _ => some ([.evf, .fresh, .freshBits, .rings, .safe], some [bEVF, bRING, bSAFE])
  | .forcedTrigger _ => some ([.evf, .freshBits, .rings, .safe], some [bEVF, bRING, bSAFE])
  | .holdoffExpiry _ | .directRouteRequest _ => some ([.evf], some [])
  | .triggerUnitArm _ _ | .triggerUnitConfigWrite _ _ _ => some ([.evf, .heldOld], some [bEVF])
  | .startAGlobalExposure _ | .startAFrame _ =>
    some ([.cnt, .evf, .freshBits, .rings, .safe, .sht], some [bCNT, bEVF, bRING, bSAFE, bSHT])
  | .freezeTheArcade | .rearmTheArcadeRecorder =>
    some ([.arc, .cnt, .evf, .freshBits, .rings, .safe], some [bARC, bCNT, bEVF, bRING, bSAFE])
  | .startAConversion _ => some ([.cnt, .evf, .freshBits, .hk, .rings, .safe], some [bCNT, bEVF, bHKA, bRING, bSAFE])
  | .markMetadata _ => some ([.cnt, .evf, .freshBits, .rings, .safe, .sht], some [bCNT, bEVF, bRING, bSAFE])
  | .raiseInterrupt _ | .driveSyncFire _ | .driveSyncArm | .releaseSyncArm | .capture | .armTriggerUnit _
  | .snapshotTheEventCounters _ | .appendASoftwareEntry _ _ =>
    some ([.cnt, .evf, .freshBits, .rings, .safe], some [bCNT, bEVF, bRING, bSAFE])
  | .signalPinEngine _ => some ([.cnt, .evf, .freshBits, .pio, .rings, .safe], some [bCNT, bEVF, bPIO, bRING, bSAFE])
  | .setComputeFlag _ => some ([.cnt, .evf, .freshBits, .npc, .rings, .safe], some [bCNT, bEVF, bNPC, bRING, bSAFE])
  | .timeSet _ _ | .timeAdd _ _ | .timeRate _ | .timeCtrlSet | .timeCtrlAdd | .ppsLoad _ _ =>
    some ([.cnt, .evf, .freshBits, .rings, .safe, .time], some [bCNT, bEVF, bRING, bSAFE, bTIME])
  | .ppsArm => some ([], some [bTIME])
  | .timeNowCapture _ => some ([.time], some [])
  | .periodicTimer _ => some ([.cnt, .evf, .freshBits, .time], some [bCNT])
  | .syncArming _ _ | .syncFireEdge _ | .syncFireRise _ _ => some ([.cnt, .evf, .freshBits], some [bCNT, bEVF])
  | .firePulseEnd => some ([], some [bEVF])
  | .badWidthTimeout | .autoRelease => some ([.evf], some [bEVF])
  | .compensatedRelease _ => some ([.cnt, .evf, .freshBits, .sht], some [bCNT, bSHT])
  | .unitHandedToStriper _ | .marker | .wakePattern => some .device
  | .ack _ _ | .nak _ _ => some ([.cnt, .evf, .freshBits, .link, .rings, .safe], none)
  | .replayTimeout | .stepDrained | .stepDrainTimeout | .stepResultTimeout | .probeStart _ => some ([.link], some [])
  | .bcAlignment _ => some ([.link], some [bLNK])
  | .interjectionDiscarded _ _ _ => some ([], some [bLNK])
  | .bcSilenceTimeout | .pm _ | .probeEnd _ =>
    some ([.cnt, .evf, .freshBits, .link, .rings, .safe], some [bCNT, bEVF, bLNK, bRING, bSAFE])
  | .bcMessageDiscarded _ _ | .caps _ | .stepResult _ =>
    some ([.cnt, .freshBits, .link, .rings, .safe], some [bCNT, bLNK, bRING, bSAFE])
  | .laneReport _ | .txDelayLineLoss _ =>
    some ([.cnt, .evf, .freshBits, .link, .rings, .safe], some [bCNT, bEVF, bLNK, bRING, bSAFE])
  | .echo _ _ => some ([.cnt, .freshBits, .link, .rings, .safe], some [bCNT, bLNK, bRING, bSAFE, bTIME])
  | .renegotiate => some ([.freshBits, .link, .rings], some [bRING])
  | .linkEnableWrite _ => some ([.cnt, .evf, .freshBits, .link, .safe], some [bCNT, bEVF, bLNK, bSAFE])
  | .wakeOnData => some ([.cnt, .evf, .freshBits, .link], some [bCNT, bEVF, bLNK])
  | .restore => some ([.rings], some [bLNK, bRING])
  | .hkStart _ | .hkPinStart _ => some ([.freshBits, .hk], some [bHKA])
  | .hkStop _ | .hkConversionStart _ | .hkPeriodicGrid _ | .hkPowerDown _ => some ([.hk], some [bHKA])
  | .hkResult _ _ => some ([.cnt, .evf, .fresh, .freshBits, .hk, .rings, .safe], none)
  | .hkCalDue _ _ | .hkCalForced _ _ => some ([.freshBits, .hk, .rings, .safe], some [bHKA, bRING, bSAFE])
  | .monitorPacketAge => some ([.freshBits, .hk, .rings], some [bHKA, bRING])
  | .interleaveChange => some ([.hk], some [])
  | .pioStep _ _ | .move _ | .shift _ | .xchg _ | .store _ | .stallEnd _ _ | .vectoredJump _ _ | .pioRun _
  | .pioPcWrite _ _ | .inject _ _ | .pioTxfWrite _ _ | .pioRxfRead _ =>
    some ([.freshBits, .pio, .rings, .safe], some [bPIO, bRING, bSAFE])
  | .pioNop _ | .pioBr _ | .await _ | .rep _ | .setv _ | .pioLoad _ | .addv _ => some ([.pio], some [bPIO])
  | .flag _ | .pioRestart _ => some ([.cnt, .evf, .freshBits, .pio], some [bCNT, bEVF, bPIO])
  | .pioSync _ => some ([], some [])
  | .slewAbsorbed => some ([.time], some [bTIME])
  | _ => none

end Sys2Proof
end

