-- ==== Sys2Proof/WellFormed.lean ====
section
/-! DEFINITION. Which commands name something the device has: a check on the command alone. -/

namespace Sys2Proof

/-- A word of the 24-bit byte space that the control ports address (R193, R194). -/
def wordAddr (a : Nat) : Bool := decide (a < 2 ^ 24) && a % 4 == 0

/-- BOOTSEL is two bits (R48). -/
def Straps.wellFormed (x : Straps) : Bool := decide (x.bootsel < 4)

/-- A frame on I2C has a 7-bit address; the inbound queues are 0 to 15 (R205, R210). -/
def PortFrame.wellFormed : PortFrame → Bool
  | .spi _ => true
  | .i2c a _ => decide (a < 128)
  | .queue q => decide (q < 16)

/-- A slot presents at most 24 banks of 225 slices of 14 decisions (R277). -/
def SlotData.wellFormed (x : SlotData) : Bool :=
  decide (x.decisions.length ≤ 24) && x.decisions.all fun b => decide (b.length ≤ 225) && b.all fun d => decide (d < 2 ^ 14)

/-- The reference reads in 16 bits; the identification has three bytes (R149, R158). -/
def BootEnv.wellFormed (e : BootEnv) : Bool := decide (e.refKhz < 2 ^ 16) && e.flashId.length == 3

/-- A word of a memory with a number, read with errors or without. -/
def Scrub.wellFormed (x : Scrub) : Bool :=
  decide (x.memory < 11) && decide (x.word < 8) && decide (x.ring < 256) && decide (x.seq < 2 ^ 16)

/-- The operands of a command name objects the device has. -/
def Instr.wellFormed (i : Instr) : Bool :=
  match i with
  | .registerWrite _ a _ | .voteFailure a _ _ => wordAddr a
  | .singleUpsetCorrected u => wordAddr u.addr
  | .resetbReset x | .testAccessPortReset x => x.wellFormed
  | .samplePreload p q x => p.length == 47 && q.length == 47 && x.wellFormed
  | .bypass op x _ => decide (2 ≤ op) && decide (op < 64) && x.wellFormed
  | .bootSequence e => e.wellFormed
  | .refMeasUpdate k => decide (k < 2 ^ 16)
  | .cmdNop f | .cmdWriteIncrementing f | .cmdWriteFixed f | .cmdReadIncrementing f | .cmdReadFixed f | .reservedOpFrame f
  | .readNotServed f => f.wellFormed
  | .frameTruncated p _ _ => decide (p ≠ .backChannel)
  | .rowSlot d => d.wellFormed
  | .subPulse r => decide (r < 2096)
  | .triggerPinEdge p _ e _ => decide (p < 6) && decide (e < 8)
  | .badgerMismatch b => decide (b < 96)
  | .windowRowAvailable w r _ => decide (w < 1024) && decide (r < 2048)
  | .tapComplete p t => decide (p < 16) && decide (t < 4)
  | .runStart p | .runDeadline p | .npcNop p | .setmode p | .salu p | .salui p | .get p | .ld p | .st p | .loop p | .br p
  | .npcEnd p | .mmul p | .post p | .discard p | .tload p | .emit p | .waitev p | .sigev p | .illegalInstruction p =>
    decide (p < 16)
  | .tensorWrite a _ => decide (a < 2 ^ 22) && a % 4 == 0
  | .triggerUnitFire n | .forcedTrigger n | .holdoffExpiry n | .triggerUnitArm n _ | .armTriggerUnit n => decide (n < 8)
  | .triggerUnitConfigWrite n r _ => decide (n < 8) && decide (r < 4)
  | .directRouteRequest r => decide (r < 64)
  | .startAConversion c | .hkStart c | .hkStop c | .hkPinStart c | .hkConversionStart c | .hkPeriodicGrid c | .hkPowerDown c =>
    decide (c < 2)
  | .hkResult c d | .hkCalDue c d | .hkCalForced c d => decide (c < 2) && decide (d < 2 ^ 14)
  | .markMetadata k | .raiseInterrupt k => decide (k < 4)
  | .signalPinEngine n | .setComputeFlag n => decide (n < 8)
  | .ppsLoad e _ | .syncArming _ e | .syncFireEdge e | .syncFireRise _ e => decide (e < 8)
  | .timeSet v _ => decide (v < 2 ^ 64)
  | .timeAdd v _ => decide (v < 2 ^ 64)
  | .periodicTimer k => decide (k < 2)
  | .arcRearm r | .arcFreeze r | .arcReplay r | .arcEndPass r | .arcFrameComplete r | .replayFrameOffer r _ => decide (r < 16)
  | .arcCmdReservedOp op r => decide (r < 16) && decide (5 ≤ op) && decide (op < 16)
  | .arcHostFetch l => decide (l < 2 ^ 20)
  | .arcScrub w _ => decide (w < 8)
  | .sramScrub x | .scrubDeferralExpiry x => x.wellFormed
  | .ack l c | .nak l c | .interjectionDiscarded l c _ => decide (l < 2 ^ 16) && decide (c < 2 ^ 8)
  | .txDelayLineLoss n | .probeStart n | .probeEnd n => decide (n < 8)
  | .pioNop n | .pioBr n | .await n | .rep n | .setv n | .move n | .shift n | .xchg n | .pioLoad n | .store n | .flag n
  | .addv n | .pioPcWrite n _ | .inject n _ | .pioTxfWrite n _ | .pioRxfRead n => decide (n < 8)
  | .pioStep n p | .stallEnd n p | .vectoredJump n p => decide (n < 8) && decide (p < 2 ^ 16)
  | .pioRun m | .pioRestart m | .pioSync m => decide (m < 256)
  | .trigWake p _ => decide (p < 4)
  | .counterLiveCapture _ k => decide (k < 32)
  | .nvmCmdReservedOp op => op == 0 || (decide (5 ≤ op) && decide (op < 8))
  | .coldReset _ | .supplyFailureReset _ _ | .vddio1ResetLevel _ | .supplyGlitch _ | .brownoutEpisodeStart _ _ | .brownoutEpisodeEnd _ _
  | .brownoutLimitExpiry _ | .testenHigh _ | .extest | .softwareReset _ | .flashBusyTimeout | .referenceWaitTimeout
  | .lockTimeout _ | .bootWatchdogExpiry | .bootRetry | .nvmUnlock _ | .nvmRead | .nvmProgram | .nvmEraseSector | .storeSeeds
  | .nvmCommandDone _ | .synLock _ | .lossOfLock _ | .refLost | .refReturn | .autoRelockAttempt _ | .commit _
  | .commitAtBeat _ | .relock _ | .stageData _ | .startFull | .startOverlay | .abort | .loadChecksComplete _ _ | .i2cStatus
  | .cmd _ | .ctlLockTake _ _ | .ctlLockFree _ _ | .ctlLockBreak _ _ | .irqbRetrigger | .runTakeUp | .runStop | .readoutStart
  | .readoutEnd | .globalIntegrationStart | .transferT1 | .transferT2 | .badgerSelfTest _ | .rdoRetire _ | .calSnapshot
  | .resume | .npcDbgEnd | .startAGlobalExposure _ | .startAFrame _ | .freezeTheArcade | .rearmTheArcadeRecorder
  | .driveSyncFire _ | .driveSyncArm | .releaseSyncArm | .capture | .snapshotTheEventCounters _ | .appendASoftwareEntry _ _
  | .timeRate _ | .timeCtrlSet | .timeCtrlAdd | .ppsArm | .timeNowCapture _ | .firePulseEnd | .badWidthTimeout
  | .compensatedRelease _ | .autoRelease | .arcHostFetchDone _ | .unitHandedToStriper _ | .marker | .replayTimeout
  | .bcAlignment _ | .bcSilenceTimeout | .bcMessageDiscarded _ _ | .caps _ | .stepResult _ | .pm _ | .laneReport _ | .echo _ _
  | .renegotiate | .linkEnableWrite _ | .stepDrained | .stepDrainTimeout | .stepResultTimeout | .wakePattern | .wakeOnData
  | .restore | .monitorPacketAge | .interleaveChange | .pwrCmd _ | .streamToReady | .readyToStandby | .standbyToSleep
  | .sleepToStandby | .standbyToReady | .readyToStream | .enterOff | .scsbWake | .blockEnableWrite _ | .faultbHalfPeriod
  | .thermalStale | .eventLogAge | .faultbTest _ | .cntClear _ | .resetbLow | .pmDrainTimeout
  | .slewAbsorbed => true

end Sys2Proof
end

