-- ==== Sys2Proof/Certificates/Slice0/Obligations.lean ====
section
/-! DEFINITION. The statements for the provers. The rules that a docstring names are those its clauses rest on, as far as the
clauses say; where a clause rests on a choice or a reading of the model, the docstring names the log entry. -/

open Sys2Proof Sys2Proof.Machine

/-- O1. A step takes the command at the front of the queue and runs it with the rest of the queue.
The model's own: notes/assumptions/1.md. -/
def Obligations.StepRunsFront : Prop :=
  ∀ (c : Instr) (cs : List Instr) (s : State),
    step { s with pending := c :: cs } = exec c { s with pending := cs }

/-- O2. R421, R423 to R425, R443: a unit whose condition has become true fires: its count rises, it has fired in this cycle,
its holdoff runs (but in single mode, where it disarms), its source and its task requests are due in the next cycle with
the stamp of the change that made the condition true, where one did. In auto mode the timeout makes an
armed unit fire with the forced mark, at the arrival stamp, unless a true fire falls in the same cycle.
The model's own: notes/assumptions/62.md and notes/assumptions/73.md. -/
def Obligations.UnitFires : Prop :=
  (∀ (n : Nat) (s : State), s.fires n = true → s.shaped = true →
    ∃ t, exec (.triggerUnitFire n) s = .next t ∧
      t.get (EVF_TU_STAT_fires n) = (s.get (EVF_TU_STAT_fires n) + 1) % 65536 ∧
      t.get (EVF_TU_STAT_last_forced n) = 0 ∧
      t.get64 (aEVF_TU_STAMP_LO n) (aEVF_TU_STAMP_HI n) = (s.fireStamp n).1.1 % 2 ^ 64 ∧
      (∀ c, s.makingChange n = some c → (s.fireStamp n).1 = c) ∧
      t.get (EVF_TU_CTRL_armed n) = (if s.get (EVF_TU_CTRL_mode n) = 2 then 0 else 1) ∧
      t.unit n = { s.unit n with
        fired := true, holding := decide (s.get (EVF_TU_CTRL_mode n) ≠ 2 ∧ s.get (EVF_TU_CTRL_holdoff n) ≠ 0) } ∧
      t.evf.pulsesNext = s.evf.pulsesNext ++ [87 + n] ∧
      t.evf.requests = s.evf.requests ++ (setBitsOf 44 (s.taskMask n)).map fun k =>
        { task := k, stamp := (s.fireStamp n).1.1, forced := false, kind := 0, who := n, cycle := s.cycle + 1
          made := s.now }) ∧
  (∀ (n : Nat) (s : State), s.mayFire n = true → s.get (EVF_TU_CTRL_mode n) = 3 → s.fires n = false → s.shaped = true →
    ∃ t, exec (.forcedTrigger n) s = .next t ∧
      t.get (EVF_TU_STAT_forced n) = satAdd 8 (s.get (EVF_TU_STAT_forced n)) 1 ∧
      t.get (EVF_TU_STAT_last_forced n) = 1 ∧ t.on EVF_IRQ_STAT_forced = true ∧
      t.get64 (aEVF_TU_STAMP_LO n) (aEVF_TU_STAMP_HI n) = s.now ∧ (t.unit n).fired = true ∧
      t.evf.requests = s.evf.requests ++ (setBitsOf 44 (s.taskMask n)).map fun k =>
        { task := k, stamp := s.now, forced := true, kind := 0, who := n, cycle := s.cycle + 1, made := s.now })

/-- O3. R421 to R424: what arms, disarms and sets back a unit: the end of a holdoff, a write of EVF_TUn_CTRL, a write of its
pattern, and the tasks 34 to 41 in single mode. -/
def Obligations.UnitArming : Prop :=
  (∀ (n : Nat) (s : State), n < 8 → s.shaped = true →
    ∃ t, exec (.holdoffExpiry n) s = .next t ∧ t.unit n = { s.unit n with holding := false } ∧
      (∀ a, t.reg a = s.reg a)) ∧
  (∀ (n : Nat) (v : Word) (s : State), n < 8 → s.shaped = true → bits v.toNat 0 2 ≠ 0 →
    s.get (EVF_TU_CTRL_mode n) = 0 →
    ∃ t, exec (.triggerUnitArm n v) s = .next t ∧ t.get (EVF_TU_CTRL_armed n) = 1 ∧
      t.get (EVF_TU_CTRL_mode n) = bits v.toNat 0 2 ∧ (t.unit n).prevTrue = false) ∧
  (∀ (n : Nat) (v : Word) (s : State), n < 8 → bits v.toNat 0 2 = 0 →
    ∃ t, exec (.triggerUnitArm n v) s = .next t ∧ t.get (EVF_TU_CTRL_armed n) = 0 ∧
      t.get (EVF_TU_CTRL_mode n) = 0) ∧
  (∀ (n r : Nat) (v : Word) (s : State), n < 8 → r < 4 → s.shaped = true →
    ∃ t, exec (.triggerUnitConfigWrite n r v) s = .next t ∧ t.reg (aEVF_TU_PATTERN n + 4 * r) = v ∧
      (t.unit n).prevTrue = true) ∧
  (∀ (n : Nat) (s : State), n < 8 → s.shaped = true → s.due (34 + n) ≠ [] → s.get (EVF_TU_CTRL_mode n) = 2 →
    ∃ t, exec (.armTriggerUnit n) s = .next t ∧ t.get (EVF_TU_CTRL_armed n) = 1 ∧ (t.unit n).prevTrue = false)

/-- O4. R400, R415, R418, R426, R427, R459, R465, R466, R468: a direct route whose source shows its edge makes a request; a task takes the
requests that are due, once, and acts: interrupts, the SYNC lines, the capture of the request's stamp, the Arcade's selected
regions, which tasks freeze and re-arm, and a compute flag.
The model's own: notes/assumptions/62.md. -/
def Obligations.TasksServed : Prop :=
  (∀ (k w : Nat) (s : State), s.route? k = some w → s.sourceEdge (bits w 0 7) (bits w 14 2) = true →
    (∀ r ∈ s.evf.requests, r.kind = 1 → r.who = k → r.cycle ≠ s.cycle) →
    ∃ t, exec (.directRouteRequest k) s = .next t ∧ t.evf.requests = s.evf.requests ++
      [{ task := bits w 8 6, forced := false, kind := 1, who := k, cycle := s.cycle, made := s.now
         stamp := ((earliestOf ((s.evf.changes.filter fun c => c.src == bits w 0 7).map
           fun c => (c.stamp, c.interp))).getD (s.now, false)).1 }]) ∧
  (∀ (b : Nat) (s : State), b < 4 → s.due (10 + b) ≠ [] →
    ∃ t, exec (.raiseInterrupt b) s = .next t ∧ bit (t.get EVF_IRQ_STAT_task_irq) b = true ∧
      ∀ r ∈ t.evf.requests, r.task = 10 + b → ∀ q ∈ s.due (10 + b), q.cycle ≠ r.cycle) ∧
  (∀ s : State, s.due 17 ≠ [] →
    ∃ t, exec .capture s = .next t ∧ t.get64 aEVF_CAPTURE_LO aEVF_CAPTURE_HI = earliest (s.due 17) % 2 ^ 64) ∧
  (∀ s : State, s.due 15 ≠ [] → ∃ t, exec .driveSyncArm s = .next t ∧ t.get EVF_SYNC_CTRL_arm = 1) ∧
  (∀ s : State, s.due 16 ≠ [] → ∃ t, exec .releaseSyncArm s = .next t ∧ t.get EVF_SYNC_CTRL_arm = 0) ∧
  (∀ (r : Nat) (d : RegionDef) (s : State), s.due 2 ≠ [] → s.regionDef? r = some d → bit d.flags 0 = true →
    s.regionState r = 1 →
    ∃ t, exec .freezeTheArcade s = .next t ∧ t.regionState r = 2 ∧
      t.get64 (aARC_REG_TRIG_STAMP_LO r) (aARC_REG_TRIG_STAMP_HI r) = earliest (s.due 2) % 2 ^ 64 ∧
      t.on ARC_IRQ_STAT_triggered = true ∧ (t.region r).postLeft = d.post + 1) ∧
  (∀ (r : Nat) (d : RegionDef) (s : State), s.due 3 ≠ [] → s.regionDef? r = some d → bit d.flags 1 = true →
    s.arc.frozenNow.contains r = false → s.freezeFollows r = false → s.pending.contains .freezeTheArcade = false →
    (s.region r).pass = none →
    ∃ t, exec .rearmTheArcadeRecorder s = .next t ∧ t.regionState r = 1 ∧
      t.region r = { abandoned := (s.region r).abandoned } ∧
      t.get (ARC_REG_STATE_generation r) = (s.get (ARC_REG_STATE_generation r) + 1) % 256) ∧
  (∀ (f : Nat) (s : State), f < 8 → s.due (26 + f) ≠ [] →
    (∀ r ∈ s.npc.runs, r.phase = .running → r.waits ≠ some f) →
    ∃ t, exec (.setComputeFlag f) s = .next t ∧ bit (t.get NPC_FLAGS_flags) f = true ∧ t.npc.runs = s.npc.runs)

/-- O5. R447, R448, R451: a fire request drives SYNC_FIRE low while the unit is armed, is not disarmed in the same cycle, the
line is high and it does not drive already, by task 14 or by register; any other one is refused, counted and reported; the pulse's end releases the line;
auto_release clears arm; a pulse too wide is counted. -/
def Obligations.SyncDrive : Prop :=
  (∀ s : State, s.syncMode = 1 → s.on EVF_SYNC_STAT_armed = true → s.evf.sync.fireLow = false →
    s.on EVF_SYNC_STAT_driving = false → s.pending.any disarms = false →
    ∃ t, exec (.driveSyncFire false) s = .next t ∧ t.get EVF_SYNC_STAT_driving = 1 ∧ t.evf = s.evf) ∧
  (∀ s : State, s.due 14 ≠ [] → s.syncMode = 1 → s.on EVF_SYNC_STAT_armed = true → s.evf.sync.fireLow = false →
    s.on EVF_SYNC_STAT_driving = false → s.pending.any disarms = false →
    ∃ t, exec (.driveSyncFire true) s = .next t ∧ t.get EVF_SYNC_STAT_driving = 1) ∧
  (∀ s : State, ∃ t, exec .firePulseEnd s = .next t ∧ t.get EVF_SYNC_STAT_driving = 0 ∧ t.evf = s.evf) ∧
  (∀ s : State, s.evf.sync.autoRelease = true →
    ∃ t, exec .autoRelease s = .next t ∧ t.get EVF_SYNC_CTRL_arm = 0 ∧ t.evf.sync.autoRelease = false) ∧
  (∀ s : State, s.evf.sync.measuring.isSome = true →
    ∃ t, exec .badWidthTimeout s = .next t ∧
      t.get EVF_SYNC_STAT_bad_width = satAdd 8 (s.get EVF_SYNC_STAT_bad_width) 1 ∧
      t.evf.sync.measuring = none ∧ t.evf.sync.releases = s.evf.sync.releases) ∧
  (∀ s : State, s.syncMode ≠ 1 ∨ s.on EVF_SYNC_STAT_armed = false ∨ s.evf.sync.fireLow = true ∨
      s.on EVF_SYNC_STAT_driving = true ∨ s.pending.any disarms = true →
    ∃ t, exec (.driveSyncFire false) s = .next t ∧ t.get EVF_SYNC_STAT_driving = s.get EVF_SYNC_STAT_driving ∧
      t.get EVF_SYNC_STAT_refused = satAdd 8 (s.get EVF_SYNC_STAT_refused) 1 ∧
      t.on EVF_IRQ_STAT_sync_refused = true)

/-- O6. R445 to R452: SYNC_ARM low arms the unit in mode 1, and high disarms it; the falling edge of SYNC_FIRE is stamped; an
edge that the direct path passes counts as a fire, and its release is scheduled, that of a falling edge by the firer's delay
once its width is known.
The model's own: notes/assumptions/8.md. -/
def Obligations.SyncLines : Prop :=
  (∀ (low : Bool) (e : Nat) (s : State),
    ∃ t, exec (.syncArming low e) s = .next t ∧ t.evf.sync.armLow = low ∧ t.level 28 = low ∧
      t.get EVF_SYNC_STAT_armed = (if low then (if s.syncMode = 1 then 1 else s.get EVF_SYNC_STAT_armed) else 0)) ∧
  (∀ (e : Nat) (s : State), s.passesEdge false = true →
    ∃ t, exec (.syncFireEdge e) s = .next t ∧ t.evf.sync.fireLow = true ∧ t.level 29 = true ∧
      t.get EVF_SYNC_STAT_phase = e % 8 ∧ t.get64 aEVF_SYNC_STAMP_LO aEVF_SYNC_STAMP_HI = s.pinStamp e ∧
      t.get EVF_SYNC_STAT_fires = (s.get EVF_SYNC_STAT_fires + 1) % 256 ∧
      (if s.on EVF_SYNC_CFG_comp = true then t.evf.sync.measuring = some (s.pinStamp e) ∧ t.evf.sync.fallPassed = true
       else t.evf.sync.releases = s.evf.sync.releases ++
         [{ pin := 4, rising := false, stamp := s.pinStamp e, delay := s.fireDelay 0 }])) ∧
  (∀ (e : Nat) (s : State), s.passesEdge false = false →
    ∃ t, exec (.syncFireEdge e) s = .next t ∧ t.evf.sync.fireLow = true ∧
      t.get EVF_SYNC_STAT_fires = s.get EVF_SYNC_STAT_fires ∧ t.evf.sync.releases = s.evf.sync.releases) ∧
  (∀ (w e fall : Nat) (s : State), s.syncMode = 1 → s.evf.sync.measuring = some fall →
    ∃ t, exec (.syncFireRise w e) s = .next t ∧ t.evf.sync.fireLow = false ∧
      t.get EVF_SYNC_STAT_last_id = min 7 ((w + 25) / 50 - 1) ∧
      t.evf.sync.measuring = none ∧ t.evf.sync.releases = (if s.evf.sync.fallPassed then s.evf.sync.releases ++
        [{ pin := 4, rising := false, stamp := fall, delay := max 480 (s.fireDelay (min 7 ((w + 25) / 50 - 1))) }]
        else s.evf.sync.releases)) ∧
  (∀ (w e : Nat) (s : State), s.syncMode = 0 → s.selects 4 true = true → s.on EVF_SYNC_CFG_comp = false →
    s.evf.sync.measuring = none →
    ∃ t, exec (.syncFireRise w e) s = .next t ∧ t.evf.sync.fireLow = false ∧
      t.get EVF_SYNC_STAT_fires = (s.get EVF_SYNC_STAT_fires + 1) % 256 ∧
      t.evf.sync.releases = s.evf.sync.releases ++
        [{ pin := 4, rising := true, stamp := s.pinStamp e, delay := s.fireDelay 0 }])

/-- O7. R435 to R438, R547: a SET, by message, by TIME_CTRL or by the armed PPS edge, steps the time base to its value plus the
time since its reference instant, and sets synced: of a message while the back-channel is aligned, in units of 1/1 024 µs.
The model's own: notes/assumptions/6.md and notes/assumptions/63.md. -/
def Obligations.TimeSetSteps : Prop :=
  (∀ (v e : Nat) (s : State), s.on LNK_STATUS_bc_aligned = true → s.timeLoses 1 = false →
    ∃ t, exec (.timeSet v e) s = .next t ∧
      t.time.base = ((v + s.get TIME_PATH_DELAY_delay) % 2 ^ 64 * 256 + e * rxUnit) % 2 ^ 72 ∧ t.time.slew = 0 ∧
      t.get TIME_STATUS_synced = 1 ∧ t.get TIME_STATUS_epoch = (s.get TIME_STATUS_epoch + 1) % 256 ∧
      t.time.changed = true) ∧
  (∀ s : State, s.on TIME_CTRL_set = false → s.timeLoses 2 = false →
    ∃ t, exec .timeCtrlSet s = .next t ∧
      t.time.base = s.get64 aTIME_LOAD_LO aTIME_LOAD_HI * 256 ∧ t.time.slew = 0 ∧ t.get TIME_STATUS_synced = 1 ∧
      t.get TIME_STATUS_epoch = (s.get TIME_STATUS_epoch + 1) % 256) ∧
  (∀ (e d : Nat) (s : State), s.time.changed = false → s.get TIME_CTRL_pps_src < 6 → s.on TIME_CTRL_pps_arm = true →
    ∃ t, exec (.ppsLoad e d) s = .next t ∧
      t.time.base = (s.get64 aTIME_LOAD_LO aTIME_LOAD_HI * 256 + d) % 2 ^ 72 ∧ t.get TIME_STATUS_synced = 1 ∧
      t.get TIME_CTRL_pps_arm = 0 ∧ t.on EVF_IRQ_STAT_pps = true ∧
      t.get64 aTIME_PPS_LO aTIME_PPS_HI = s.pinStamp e) ∧
  (∀ s : State, ∃ t, exec .ppsArm s = .next t ∧ t.get TIME_CTRL_pps_arm = 1 ∧ t.time = s.time ∧
      ∀ a, a ≠ aTIME_CTRL → t.reg a = s.reg a)

/-- O8. R435, R437: an ADD is slewed while slew_en is 1 and its magnitude does not exceed the limit, else it is a step of the
time base by the signed offset. A slew ends with its exact remainder, once no more than one step of it is left.
The model's own: notes/assumptions/63.md. -/
def Obligations.TimeAddSlewsOrSteps : Prop :=
  (∀ (d e : Nat) (s : State), s.on LNK_STATUS_bc_aligned = true → s.timeLoses 1 = false →
    s.slews (toSigned 64 (d % 2 ^ 64)) = true →
    ∃ t, exec (.timeAdd d e) s = .next t ∧ t.time.base = s.time.base ∧ t.time.slew = toSigned 64 (d % 2 ^ 64) * 256 ∧
      t.get TIME_STATUS_slewing = b2n (toSigned 64 (d % 2 ^ 64) != 0) ∧ t.get TIME_STATUS_epoch = s.get TIME_STATUS_epoch) ∧
  (∀ (d e : Nat) (s : State), s.on LNK_STATUS_bc_aligned = true → s.timeLoses 1 = false →
    s.slews (toSigned 64 (d % 2 ^ 64)) = false →
    ∃ t, exec (.timeAdd d e) s = .next t ∧
      t.time.base = ofSigned 72 ((s.time.base : Int) + toSigned 64 (d % 2 ^ 64) * 256) ∧ t.time.slew = 0 ∧
      t.get TIME_STATUS_epoch = (s.get TIME_STATUS_epoch + 1) % 256 ∧ t.get TIME_STATUS_synced = 1) ∧
  (∀ s : State, s.on TIME_CTRL_add = false → s.timeLoses 2 = false → s.slews (toSigned 64 (s.get64 aTIME_LOAD_LO aTIME_LOAD_HI)) = false →
    ∃ t, exec .timeCtrlAdd s = .next t ∧
      t.time.base = ofSigned 72 ((s.time.base : Int) + toSigned 64 (s.get64 aTIME_LOAD_LO aTIME_LOAD_HI) * 256) ∧
      t.get TIME_STATUS_epoch = (s.get TIME_STATUS_epoch + 1) % 256 ∧
      t.get TIME_STATUS_synced = s.get TIME_STATUS_synced) ∧
  (∀ s : State, s.time.slew ≠ 0 → s.time.slew.natAbs ≤ s.slewStep →
    ∃ t, exec .slewAbsorbed s = .next t ∧
      t.time.base = ofSigned 72 ((s.time.base : Int) + s.time.slew) ∧ t.time.slew = 0 ∧ t.get TIME_STATUS_slewing = 0) ∧
  (∀ s : State, s.time.slew = 0 ∨ s.slewStep < s.time.slew.natAbs → exec .slewAbsorbed s = .next s)

/-- O9. R432, R435, R436, R438, the captures and the timers: a RATE message sets TIME_INC, 0 aside; a read of TIME_NOW_LO
captures the upper word for its port; a timer that is due raises its source. At most one change is applied in a SYS cycle, that of the
highest priority; one that loses waits, its bit of TIME_CTRL at 1, and leaves the time base.
The model's own: notes/assumptions/63.md. -/
def Obligations.TimeRateAndTimers : Prop :=
  (∀ (v : Word) (s : State), s.on LNK_STATUS_bc_aligned = true → s.timeLoses 1 = false → v ≠ 0#32 →
    ∃ t, exec (.timeRate v) s = .next t ∧ t.get TIME_INC_inc = v.toNat ∧ t.time.base = s.time.base ∧
      t.get TIME_STATUS_epoch = s.get TIME_STATUS_epoch) ∧
  (∀ (p : Port) (s : State), ∃ t, exec (.timeNowCapture p) s = .next t ∧
      Sparse.get 0 t.time.captured p.num = s.now / 2 ^ 32 ∧ ∀ a, t.reg a = s.reg a) ∧
  (∀ (i : Nat) (s : State), i < 2 → s.timerDue i = true →
    ∃ t, exec (.periodicTimer i) s = .next t ∧ (85 + i) ∈ t.evf.pulses ∧ i ∈ t.time.timersFired ∧
      t.time.base = s.time.base) ∧
  (∀ (v e : Nat) (s : State), s.on LNK_STATUS_bc_aligned = true → s.timeLoses 1 = true →
    (∃ t, exec (.timeSet v e) s = .next t ∧ t.time.base = s.time.base ∧
      t.time.waiting.length = s.time.waiting.length + 1 ∧ t.get TIME_STATUS_epoch = s.get TIME_STATUS_epoch) ∧
    (∃ t, exec (.timeAdd v e) s = .next t ∧ t.time.base = s.time.base ∧
      t.time.waiting.length = s.time.waiting.length + 1 ∧ t.get TIME_STATUS_epoch = s.get TIME_STATUS_epoch)) ∧
  (∀ s : State, s.timeLoses 2 = true →
    (s.on TIME_CTRL_set = false → ∃ t, exec .timeCtrlSet s = .next t ∧ t.time.base = s.time.base ∧
      t.time.waiting.length = s.time.waiting.length + 1 ∧ t.on TIME_CTRL_set = true) ∧
    (s.on TIME_CTRL_add = false → ∃ t, exec .timeCtrlAdd s = .next t ∧ t.time.base = s.time.base ∧
      t.time.waiting.length = s.time.waiting.length + 1 ∧ t.on TIME_CTRL_add = true))

/-- O10. R664: a snapshot copies every counter, as it stood before a clear of the same cycle, with the time base; a clear
leaves a counter at 1 where it has counted in this cycle and at 0 elsewhere, and other counters as they are. -/
def Obligations.CounterSnapshots : Prop :=
  (∀ s : State, s.cnt.snapped = false →
    ∃ t, exec (.snapshotTheEventCounters false) s = .next t ∧
      (∀ k, k < 32 → t.get64 (aCNT_SNAP k 0) (aCNT_SNAP k 1) =
        (Sparse.find s.cnt.cleared k).getD (s.counter k) % 2 ^ 64) ∧
      t.get64 aCNT_SNAP_STAMP_LO aCNT_SNAP_STAMP_HI = s.now ∧ t.on CNT_IRQ_STAT_snapshot = true ∧
      t.cnt.snapped = true ∧ ∀ k, k < 32 → t.counter k = s.counter k) ∧
  (∀ s : State, s.cnt.snapped = true → exec (.snapshotTheEventCounters false) s = .next s) ∧
  (∀ (m : Word) (s : State), ∃ t, exec (.cntClear m) s = .next t ∧
      ∀ k, k < 32 → t.counter k = (if bit m.toNat k = true then b2n (s.cnt.counted.contains k) else s.counter k)) ∧
  (∀ (p : Port) (k : Nat) (s : State), k < 32 →
    ∃ t, exec (.counterLiveCapture p k) s = .next t ∧
      Sparse.get 0 t.cnt.captured (32 * p.num + k) = s.counter k / 2 ^ 32 ∧ ∀ a, t.reg a = s.reg a)

/-- O11. R659: a write to SAFE_LOG_SW appends an entry of kind 5 with the value and the port, and task 43 one with 0, 4 and
the request's stamp, while the buffer has room. -/
def Obligations.SoftwareEntries : Prop :=
  (∀ (p : Port) (v : Word) (s : State), s.safe.log.length < 511 →
    ∃ t, exec (.appendASoftwareEntry (some p) v) s = .next t ∧ t.reg (aSAFE_LOG_LAST 0) = 0x130500#32 ∧
      t.reg (aSAFE_LOG_LAST 1) = v ∧ (t.reg (aSAFE_LOG_LAST 2)).toNat = p.num ∧
      (t.reg (aSAFE_LOG_LAST 6)).toNat + 2 ^ 32 * (t.reg (aSAFE_LOG_LAST 7)).toNat = s.now) ∧
  (∀ (r : Request) (v : Word) (s : State), s.safe.log.length < 511 → s.due 43 = [r] →
    ∃ t, exec (.appendASoftwareEntry none v) s = .next t ∧ t.reg (aSAFE_LOG_LAST 0) = 0x130500#32 ∧
      t.reg (aSAFE_LOG_LAST 1) = 0#32 ∧ (t.reg (aSAFE_LOG_LAST 2)).toNat = 4 ∧
      (t.reg (aSAFE_LOG_LAST 6)).toNat + 2 ^ 32 * (t.reg (aSAFE_LOG_LAST 7)).toNat = r.stamp % 2 ^ 64)

/-- O12. R644 to R648, R658, R660, R665: FAULTB's test and wave, Badger's self-test and mismatch, a stale temperature and the
age of the log.
The model's own: notes/assumptions/61.md and notes/assumptions/84.md. -/
def Obligations.SafetyEvents : Prop :=
  (∀ (on : Bool) (s : State), s.portsDead = false →
    ∃ t, exec (.faultbTest on) s = .next t ∧ t.on SAFE_FAULTB_test = on ∧
      (on = true → bit (t.get SAFE_FAULT_STAT_fault) 7 = true)) ∧
  (∀ s : State, s.get SAFE_FAULTB_level = 1 →
    ∃ t, exec .faultbHalfPeriod s = .next t ∧ t.safe.waveLow = !s.safe.waveLow ∧ ∀ a, t.reg a = s.reg a) ∧
  (∀ (reported : Bool) (f : Frame) (s : State), s.safe.badgerPending = true → s.sht.cur = some f →
    ∃ t, exec (.badgerSelfTest reported) s = .next t ∧ t.safe.badgerPending = false ∧
      t.get SAFE_BADGER_last_bit = f.number % 96 ∧
      t.on SAFE_BADGER_lost = (s.on SAFE_BADGER_lost || !reported)) ∧
  (∀ (b : Nat) (s : State), b < 96 → 3 ≤ s.power → s.on SAFE_BADGER_lost = false → s.safe.badgerOff = false →
    ∃ t, exec (.badgerMismatch b) s = .next t ∧ bit (t.get SAFE_FAULT_STAT_fault) 4 = true ∧
      t.get SAFE_BADGER_mismatches = satAdd 16 (s.get SAFE_BADGER_mismatches) 1) ∧
  (∀ s : State, 3 ≤ s.power → s.on SAFE_THERMAL_STAT_stale = false →
    ∃ t, exec .thermalStale s = .next t ∧ t.on SAFE_THERMAL_STAT_stale = true ∧
      bit (t.get SAFE_FAULT_STAT_warn) 2 = true) ∧
  (∀ s : State, s.linkActive = true → 0 < s.safe.log.length →
    16 + 32 * min s.logBatch s.safe.log.length + 20 ≤ s.spoolFree 1 →
    ∃ t, exec .eventLogAge s = .next t ∧ t.safe.log = s.safe.log.drop (min s.logBatch s.safe.log.length) ∧
      (∃ p ∈ (t.ring 1).spool, p.type = 7 ∧ p.seq = s.get (RING_SEQ_next 1)))

/-- O13. R16, R230, R231, R239 to R243, R706: the events of a frame. A global exposure starts and its transfers follow, the first
one with the storage nodes free; a readout starts with the next frame number; sub-pulses are counted up to N', for the frame
in readout while the row's read slot is still to come and else for the next; the readout ends. run is taken up in STREAM with SYNA
locked and no power step running: a first frame is sampled. Taking run back stops the readouts; a rolling frame already sampled
is not read.
The model's own: notes/assumptions/65.md. -/
def Obligations.FrameEvents : Prop :=
  (∀ (f : Frame) (s : State), s.sht.next = some f → f.mode = 1 → s.sht.phase = 0 → s.sht.accepted = true →
    ∃ t, exec .globalIntegrationStart s = .next t ∧ t.sht.phase = 1 ∧ 49 ∈ t.evf.pulses ∧
      ∃ g, t.sht.next = some g ∧ g.stamp = s.stampAfter 0 ∧ g.epoch = s.get TIME_STATUS_epoch ∧
        g.synced = s.on TIME_STATUS_synced ∧ g.number = f.number) ∧
  (∀ (f : Frame) (s : State), s.sht.next = some f → s.sht.phase = 1 → s.nodesFree = true →
    exec .transferT1 s = .next (s.setSht { s.sht with phase := if f.exps = 2 then 2 else 3 })) ∧
  (∀ s : State, s.sht.phase = 2 → exec .transferT2 s = .next (s.setSht { s.sht with phase := 3 })) ∧
  (∀ (f : Frame) (s : State), s.sht.next = some f → s.sht.reading = false → s.power = 4 →
    (if f.mode = 1 then s.sht.phase = 3 else s.sht.running = true ∧ (f.trigMode = false ∨ s.sht.accepted = true)) →
    ∃ t, exec .readoutStart s = .next t ∧ t.sht.reading = true ∧ t.sht.frameNo = s.sht.frameNo + 1 ∧ t.sht.slot = 0 ∧
      t.get SHT_FRAME_NUM_frame = (s.sht.frameNo + 1) % 2 ^ 32 ∧ t.on SHT_IRQ_STAT_readout_start = true ∧
      46 ∈ t.evf.pulses ∧ ∃ g, t.sht.cur = some g ∧ g.number = s.sht.frameNo + 1 ∧ g.marks = s.sht.nextMarks) ∧
  (∀ (r : Nat) (f : Frame) (s : State), (∀ g, s.sht.cur = some g → g.mode ≠ 2 ∨ s.readAhead g r g.pulseExp = false) →
    s.sht.next = some f → (f.trigMode = false ∨ s.sht.accepted = true) → f.mode = 2 → r < 2096 →
    (Sparse.get 0 s.sht.subNext r < f.pulses →
      ∃ t, exec (.subPulse r) s = .next t ∧ t.sht.subPulses = s.sht.subPulses ∧
        Sparse.get 0 t.sht.subNext r = Sparse.get 0 s.sht.subNext r + 1) ∧
    (f.pulses ≤ Sparse.get 0 s.sht.subNext r → exec (.subPulse r) s = .next s)) ∧
  (∀ (r : Nat) (f : Frame) (s : State), s.sht.cur = some f → f.mode = 2 → s.readAhead f r f.pulseExp = true → r < 2096 →
    (Sparse.get 0 s.sht.subPulses r < f.pulses →
      ∃ t, exec (.subPulse r) s = .next t ∧ t.sht.subNext = s.sht.subNext ∧
        Sparse.get 0 t.sht.subPulses r = Sparse.get 0 s.sht.subPulses r + 1) ∧
    (f.pulses ≤ Sparse.get 0 s.sht.subPulses r → exec (.subPulse r) s = .next s)) ∧
  (∀ (f : Frame) (s : State), s.sht.cur = some f → s.sht.reading = true → f.slots ≤ s.sht.slot → s.cfg.load = none →
    s.cfg.waiting = none →
    ∃ t, exec .readoutEnd s = .next t ∧ t.sht.reading = false ∧ t.sht.after = 0 ∧
      t.on SHT_IRQ_STAT_readout_end = true ∧ 47 ∈ t.evf.pulses ∧ t.safe.badgerPending = true) ∧
  (∀ s : State, s.on SHT_CTRL_run = true → s.power = 4 → s.clk.a.locked = true → s.sht.running = false →
    s.pwr.step = none →
    ∃ t, exec .runTakeUp s = .next t ∧ t.sht.running = true ∧ t.sht.sampled = true ∧ t.sht.accepted = false ∧
      t.sht.frameNo = s.sht.frameNo ∧ t.get SHT_STATUS_streaming = 1 ∧
      ∃ f, t.sht.next = some f ∧ f.first = true ∧ f.number = s.sht.frameNo + 1) ∧
  (∀ (f : Frame) (s : State), s.sht.phase = 0 → s.sht.next = some f → f.mode ≠ 1 →
    ∃ t, exec .runStop s = .next t ∧ t.get SHT_CTRL_run = 0 ∧ t.sht.running = false ∧ t.sht.next = none ∧
      t.get SHT_STATUS_integrating = 0 ∧ t.sht.reading = s.sht.reading ∧ t.sht.cur = s.sht.cur)

/-- O14. R228, R265, R280, R416, R650, R652: a slot of the readout elapses, and after a converting slot the rest position moves on,
wrapping at 224; a mark falls on the frame in readout, else on the next; a window's output row is taken in order, and an
uncorrectable error of the merge buffer that a merged row meets is counted and recorded.
The model's own: notes/assumptions/86.md. -/
def Obligations.ReadoutProgress : Prop :=
  (∀ (d : SlotData) (f : Frame) (s : State), s.sht.cur = some f → s.sht.reading = true → s.sht.slot < f.slots →
    ∃ t, exec (.rowSlot d) s = .next t ∧ t.sht.slot = s.sht.slot + 1 ∧ t.sht.reading = true ∧
      ∀ p e, f.serves s.sht.slot = some (p, e) → ¬(40 ≤ p ∧ p < 2088 ∧ s.inBand (p - 40) = true ∧ 2 ≤ (p - 40) % 4) →
        t.get RDO_STATUS_rest_pos =
          (if s.get RDO_STATUS_rest_pos = 224 then 0 else (s.get RDO_STATUS_rest_pos + 1) % 256)) ∧
  (∀ (m : Nat) (f : Frame) (s : State), m < 4 → s.due (6 + m) ≠ [] → s.sht.reading = true → s.sht.cur = some f →
    ∃ t, exec (.markMetadata m) s = .next t ∧
      t.sht = { s.sht with cur := some { f with marks := setBits f.marks m 1 1 } }) ∧
  (∀ (m : Nat) (s : State), m < 4 → s.due (6 + m) ≠ [] → s.sht.reading = false →
    ∃ t, exec (.markMetadata m) s = .next t ∧
      t.sht = { s.sht with nextMarks := setBits s.sht.nextMarks m 1 1 }) ∧
  (∀ (i k : Nat) (w : Win) (f : Frame) (vs : List Nat) (es : List (Nat × Nat)) (s : State), s.window? i = some w →
    s.sht.cur = some f → s.sht.reading = true → s.samples i w f.number = true → k < w.outH →
    s.outRow f w k = some vs →
    (match s.winFrame? i with | some x => if x.number = f.number then x.next else 0 | none => 0) = k →
    ∃ t x, exec (.windowRowAvailable i k es) s = .next t ∧ t.winFrame? i = some x ∧ x.number = f.number ∧
      x.next = k + 1 ∧ (∀ a b, es = [(a, b)] → w.expSel = 4 → f.mode ≠ 1 → 2 ≤ f.exps → 2 ≤ b →
        t.get SAFE_ECC_uncorrectable = satAdd 16 (s.get SAFE_ECC_uncorrectable) 1 ∧ t.get SAFE_ECC_LAST_memory = 8 ∧
        t.on SAFE_IRQ_STAT_ecc = true))

/-- O15. R244, R246, R248, R450, R708: triggers. An edge of a TRIG pin gives its source the level; a selected edge with a
delay is released when the delay has run; a task starts a frame where SHT_TRIG_CFG selects the tasks.
The model's own: notes/assumptions/8.md. -/
def Obligations.Triggers : Prop :=
  (∀ (p : Nat) (rising : Bool) (e since : Nat) (s : State), p < 4 → s.selects p rising = true → s.fireDelay 0 ≠ 0 →
    ∃ t, exec (.triggerPinEdge p rising e since) s = .next t ∧ t.level (24 + p) = rising ∧
      t.evf.sync.releases = s.evf.sync.releases ++
        [{ pin := p, rising := rising, stamp := s.pinStamp e, delay := s.fireDelay 0 }]) ∧
  (∀ (since : Nat) (r : Release) (rs : List Release) (f : Frame) (s : State), s.evf.sync.releases = r :: rs →
    s.selects r.pin r.rising = true → s.trigHonoured = true → s.sht.next = some f → s.sht.accepted = false →
    s.sht.phase = 0 → f.accepts s.sht.cur since = true →
    ∃ t, exec (.compensatedRelease since) s = .next t ∧ t.evf.sync.releases = rs ∧ t.sht.accepted = true ∧
      t.get SHT_STATUS_integrating = 1 ∧ ∃ g, t.sht.next = some g ∧ g.triggered = true ∧ g.forced = false) ∧
  (∀ (since : Nat) (f : Frame) (s : State), s.due 1 ≠ [] → s.get SHT_TRIG_CFG_src = 5 → s.trigHonoured = true →
    s.sht.next = some f → s.sht.accepted = false → s.sht.phase = 0 →
    f.accepts s.sht.cur since = true →
    ∃ t, exec (.startAFrame since) s = .next t ∧ t.sht.accepted = true ∧ t.get SHT_STATUS_integrating = 1 ∧
      ∃ g, t.sht.next = some g ∧ g.triggered = true ∧ g.forced = (s.due 1).all (·.forced)) ∧
  (∀ (since : Nat) (f : Frame) (s : State), s.due 0 ≠ [] → s.get SHT_TRIG_CFG_src = 5 → s.trigHonoured = true →
    s.sht.next = some f → f.mode = 1 → s.sht.accepted = false → s.sht.phase = 0 →
    f.accepts s.sht.cur since = true →
    ∃ t, exec (.startAGlobalExposure since) s = .next t ∧ t.sht.accepted = true ∧
      ∃ g, t.sht.next = some g ∧ g.triggered = true) ∧
  (∀ (since : Nat) (f : Frame) (s : State), s.due 1 ≠ [] → s.get SHT_TRIG_CFG_src = 5 → s.trigHonoured = true →
    s.sht.next = some f →
    (s.sht.accepted = true ∨ s.sht.phase ≠ 0 ∨ f.accepts s.sht.cur since = false) →
    ∃ t, exec (.startAFrame since) s = .next t ∧ t.sht = s.sht ∧ t.on SHT_IRQ_STAT_trig_ignored = true ∧
      t.get SHT_TRIG_IGNORED_count = satAdd 16 (s.get SHT_TRIG_IGNORED_count) 1)

/-- O16. R292, R293, R314: RDO_RETIRE with its key retires a slice: at once while no readouts run, at the next slot boundary
while they do. A snapshot that waits shows the trims of the selected slice. -/
def Obligations.RetireAndSnapshot : Prop :=
  (∀ (v : Word) (s : State), bits v.toNat 24 8 = 0xD7 → bits v.toNat 0 5 ≤ 23 → bits v.toNat 8 8 ≤ 224 →
    s.shaped = true → (s.bank (bits v.toNat 0 5)).retired.contains (bits v.toNat 8 8) = false →
    s.rdo.pending = [] → s.slotsRun = false →
    ∃ t, exec (.rdoRetire v) s = .next t ∧ t.get RDO_RETIRE_RESULT_cause = 0x62 ∧
      t.get RDO_RETIRE_RESULT_pending = 0 ∧
      (t.bank (bits v.toNat 0 5)).retired.contains (bits v.toNat 8 8) = true ∧ t.on RDO_IRQ_STAT_retired = true) ∧
  (∀ (v : Word) (s : State), bits v.toNat 24 8 = 0xD7 → bits v.toNat 0 5 ≤ 23 → bits v.toNat 8 8 ≤ 224 →
    (s.bank (bits v.toNat 0 5)).retired.contains (bits v.toNat 8 8) = false →
    s.rdo.pending = [] → s.slotsRun = true →
    ∃ t, exec (.rdoRetire v) s = .next t ∧ t.get RDO_RETIRE_RESULT_cause = 0x62 ∧
      t.get RDO_RETIRE_RESULT_pending = 1 ∧ t.rdo.banks = s.rdo.banks ∧
      t.rdo.pending = [{ bank := bits v.toNat 0 5, slice := bits v.toNat 8 8, cause := 0x62 }]) ∧
  (∀ s : State, s.rdo.snapWaits = true → s.get CAL_SEL_bank ≤ 23 → s.get CAL_SEL_slice ≤ 224 →
    ∃ t, exec .calSnapshot s = .next t ∧ t.rdo.snapWaits = false ∧ t.get CAL_SNAP_STATUS_ready = 1 ∧
      t.get CAL_SNAP_STATUS_cause = 0 ∧ t.on CAL_IRQ_STAT_snapshot = true ∧
      t.get CAL_SNAP_TRIM_off = ofSigned 8 ((s.bank (s.get CAL_SEL_bank)).slice (s.get CAL_SEL_slice)).off ∧
      t.get CAL_SNAP_TRIM_gain = ofSigned 8 ((s.bank (s.get CAL_SEL_bank)).slice (s.get CAL_SEL_slice)).gain)

/-- O17. R361, R362, R363, R365, R376, R379, R381: a run becomes ready with its last tap, starts when it ranks first, its
arrays are free and it is enabled, and is ended by its deadline with the deadline cause. -/
def Obligations.RunLifetime : Prop :=
  (∀ (p k : Nat) (r : Run) (s : State), s.npcClock = true →
    (s.npc.runs.find? fun r => r.prog == p && r.phase == .waiting && s.tapWhole r k && !r.taps.contains k) = some r →
    ∃ t, exec (.tapComplete p k) s = .next t ∧
      (if r.taps.length + 1 = r.plan.taps.length then
        { r with taps := k :: r.taps, phase := .ready, gated := !s.on PWR_BLOCK_EN_npc } ∈ t.npc.runs
      else { r with taps := k :: r.taps } ∈ t.npc.runs)) ∧
  (∀ (p : Nat) (r : Run) (s : State), s.npcClock = true → s.runIn? p .ready = some r → s.runDisabled r = false →
    (∀ q ∈ s.npc.runs, q.phase = .ready → q.ahead r = false) → (∀ l ∈ s.npc.loads, r.frame < l.1) →
    (∀ q ∈ s.npc.runs, q.holds = true → ∀ a ∈ q.plan.arrays, a ∉ r.plan.arrays) →
    (∀ q ∈ s.npc.runs, q.phase ≠ .running ∨ q.prog ≠ p) →
    ∃ t, exec (.runStart p) s = .next t ∧
      t.runIn? p .running = some { r with phase := .running, satTrap := s.lon NPC_CTRL_sat_trap } ∧
      t.tensorMem = s.tensorMem) ∧
  (∀ (p : Nat) (r : Run) (s : State), p < 16 →
    (s.npc.runs.find? fun r => r.prog == p && r.deadline.isSome) = some r → s.npc.loads = [] →
    ∃ t, exec (.runDeadline p) s = .next t ∧
      t.get (NPC_PROG_STAT_cause p) = (match r.phase with
        | .waiting => 0x72 | .ready => 0x71 | .running => 0x70 | .halted => r.cause) % 256 ∧
      t.get (NPC_PROG_FRAME_frame p) = r.frame % 2 ^ 32 ∧ t.tensorMem = s.tensorMem ∧
      (t.npc.runs = s.npc.runs.filter fun q => !(q.prog == p && q.frame == r.frame)))

/-- O18. R382, R384, R392, R398: the scalar instructions write their register, SETMODE makes its mode pending, and all of
them leave tensor memory. -/
def Obligations.ScalarInstructions : Prop :=
  ∀ (p w : Nat) (r : Run) (s : State),
    (s.executes p 0x00 w r → s.runGoesOn (.npcNop p) p ((r.tick 1).advanced none none) s.tensorMem) ∧
    (s.executes p 0x01 w r → s.runGoesOn (.setmode p) p ((r.tick 1).advanced none (some (bits w 0 1))) s.tensorMem) ∧
    (∀ v, s.executes p 0x02 w r → saluF (bits w 42 4) (r.xr (bits w 50 4)) (r.xr (bits w 46 4)) = some v →
      s.runGoesOn (.salu p) p (((r.setX (bits w 54 4) v).tick 1).advanced none none) s.tensorMem) ∧
    (∀ v, s.executes p 0x03 w r → saluF (bits w 42 4) (r.xr (bits w 50 4)) (bits w 0 32) = some v →
      s.runGoesOn (.salui p) p (((r.setX (bits w 54 4) v).tick 1).advanced none none) s.tensorMem) ∧
    (∀ v, s.executes p 0x04 w r → r.getValue s.liveParams (bits w 42 4) (bits w 0 8) = some v →
      s.runGoesOn (.get p) p (((r.setX (bits w 54 4) v).tick 1).advanced none none) s.tensorMem)

/-- O19. R357, R375, R385, R390, R391: loads, stores, the table load and EMIT, on extents the program may use: what they read
byte by byte, and the bytes a store writes. -/
def Obligations.MemoryInstructions : Prop :=
  ∀ (p w : Nat) (r : Run) (s : State), s.wf = true →
    (∀ n a v, s.executes p 0x05 w r → bits w 43 3 ≤ 4 → n = sizeBytes (bits w 43 3) → r.memCheck w false = none →
      a = (r.memAddr w).toNat → s.badAt 1 a n = none → v = leNat (cellsRead s.tensorMem a n) →
      s.runGoesOn (.ld p) p
        ({ r.setX (bits w 54 4) (if bits w 43 3 % 2 = 1 then ofSigned 32 (toSigned (8 * n) v) else v) with
          issue := max r.issue r.arrayFrom + 2 }.advanced none none) s.tensorMem) ∧
    (∀ n a, s.executes p 0x06 w r → bits w 43 3 ≤ 4 → bits w 43 3 % 2 = 0 → n = sizeBytes (bits w 43 3) →
      r.memCheck w true = none → a = (r.memAddr w).toNat →
      (Run.advanced { r with issue := max r.issue r.arrayFrom + 2 } none none).pc < r.plan.words →
      ∃ t, exec (.st p) s = .next t ∧
        t.runIn? p .running = some (Run.advanced { r with issue := max r.issue r.arrayFrom + 2 } none none) ∧
        ∀ b, cellGet t.tensorMem b = if a ≤ b ∧ b < a + n then
          (leBytes n (r.xr (bits w 46 4))).getD (b - a) 0 else cellGet s.tensorMem b) ∧
    (∀ a, s.executes p 0x13 w r → a = r.xr (bits w 50 4) → r.extent false a (a + 511 : Nat) = none →
      s.badAt 1 a 512 = none →
      s.runGoesOn (.tload p) p
        ({ r with
            table := (List.range 256).map fun i => toSigned 16 (leNat (cellsRead s.tensorMem (a + 2 * i) 2))
            issue := max r.issue r.arrayFrom + 16, arrayFrom := max r.issue r.arrayFrom + 16 }.advanced none none)
        s.tensorMem) ∧
    (∀ a n, s.executes p 0x14 w r → a = r.xr (bits w 50 4) → n = r.xr (bits w 46 4) →
      (n ≠ 0 → r.extent true a ((a : Int) + n - 1) = none) → r.payload.length + n + 16 ≤ r.plan.maxPayload →
      s.badAt 1 a n = none →
      s.runGoesOn (.emit p) p
        ({ r with payload := r.payload ++ cellsRead s.tensorMem a n
                  issue := max r.issue r.arrayFrom + 4 + ceilDiv n 64 }.advanced none none) s.tensorMem)

/-- O20. R392, R393, R395 to R401: LOOP pushes its body or skips it, BR goes to its target or on, END ends the run valid with its
packet and its cycles, WAITEV takes a flag that is set and waits for one that is not, SIGEV raises its line, or holds while the
line's pulse lasts. How pc and mode go on after
an instruction that branches nowhere: to the next word, or back to the start of the innermost loop that ends there; the pending
mode comes into force, and a SETMODE's own is pending then.
The model's own: notes/assumptions/2.md and notes/assumptions/11.md. -/
def Obligations.ControlInstructions : Prop :=
  (∀ (p w : Nat) (r : Run) (s : State),
    (∀ last count, s.executes p 0x08 w r → last = r.pc + bits w 32 12 + 1 →
      count = toSigned 32 ((r.xr (bits w 50 4) + bits w 0 32) % 2 ^ 32) → r.loops.length < 3 →
      (∀ l ∈ r.loops, l.first ≤ r.pc → r.pc ≤ l.last → last ≤ l.last) → last < r.plan.words →
      (0 < count → s.runGoesOn (.loop p) p (Run.advanced { r.tick 1 with
          loops := r.loops ++ [{ first := r.pc + 1, last := last, count := count.toNat }] } (some (r.pc + 1)) none)
          s.tensorMem) ∧
      (count ≤ 0 → s.runGoesOn (.loop p) p ((r.tick 1).advanced (some (last + 1)) none) s.tensorMem)) ∧
    (∀ v target : Int, s.executes p 0x09 w r → v = toSigned 32 (r.xr (bits w 50 4)) →
      target = (r.pc : Int) + toSigned 16 (bits w 0 16) → bits w 43 3 ≤ 4 →
      (if bits w 43 3 = 0 ∨ (bits w 43 3 = 1 ∧ v = 0) ∨ (bits w 43 3 = 2 ∧ v ≠ 0) ∨ (bits w 43 3 = 3 ∧ v < 0) ∨
          (bits w 43 3 = 4 ∧ 0 ≤ v) then
        0 ≤ target → target < r.plan.words →
        s.runGoesOn (.br p) p ({ r.tick 1 with loops := keptLoops target.toNat r.loops }.advanced (some target.toNat) none)
          s.tensorMem
      else s.runGoesOn (.br p) p ((r.tick 1).advanced none none) s.tensorMem)) ∧
    (p < 16 → r.prog = p → s.executes p 0x0A w r → s.npc.loads = [] →
      ∃ t, exec (.npcEnd p) s = .next t ∧ t.get (NPC_PROG_STAT_cause p) = 0 ∧
        t.get (NPC_PROG_FRAME_frame p) = r.frame % 2 ^ 32 ∧ t.on NPC_IRQ_STAT_run_done = true ∧
        (r.delayed = false → t.get (NPC_PROG_TIME_cycles p) = (r.issue + 1) % 2 ^ 32) ∧
        (36 + r.payload.length ≤ s.spoolFree r.plan.ring →
          ∃ k ∈ (t.ring r.plan.ring).spool, k.type = 5 ∧ k.frame = r.frame % 2 ^ 32 ∧ k.payload.drop 16 = r.payload) ∧
        t.npc.runs = s.npc.runs.filter fun q => !(q.prog == p && q.frame == r.frame)) ∧
    (∀ q, s.executes p 0x18 w r → (r.released = true ∨ bit (s.get NPC_FLAGS_flags) (bits w 0 3) = true) →
      q = { r.tick 1 with waits := none, released := false }.advanced none none → q.pc < q.plan.words →
      ∃ t, exec (.waitev p) s = .next t ∧ t.runIn? p .running = some q ∧ t.tensorMem = s.tensorMem ∧
        (r.released = false → bit (t.get NPC_FLAGS_flags) (bits w 0 3) = false) ∧
        (r.released = true → t.get NPC_FLAGS_flags = s.get NPC_FLAGS_flags)) ∧
    (s.executes p 0x18 w r → r.released = false → bit (s.get NPC_FLAGS_flags) (bits w 0 3) = false →
      ∃ t, exec (.waitev p) s = .next t ∧
        t.runIn? p .running = some { r with waits := some (bits w 0 3), delayed := true }) ∧
    (s.executes p 0x19 w r → s.evf.pulses.contains (66 + bits w 0 3) = true →
      ∃ t, exec (.sigev p) s = .next t ∧ t.runIn? p .running = some { r with delayed := true } ∧ t.evf = s.evf) ∧
    (s.executes p 0x19 w r → s.evf.pulses.contains (66 + bits w 0 3) = false →
      ((r.tick 1).advanced none none).pc < r.plan.words →
      ∃ t, exec (.sigev p) s = .next t ∧ t.runIn? p .running = some ((r.tick 1).advanced none none) ∧
        (66 + bits w 0 3) ∈ t.evf.pulses)) ∧
  (∀ (r : Run) (m : Option Nat), (∀ l ∈ r.loops, l.last ≠ r.pc) →
    r.advanced none m = { r with
      pc := r.pc + 1, mode := r.pendingMode.getD r.mode, pendingMode := m }) ∧
  (∀ (r : Run) (outer inner : List Loop) (l : Loop) (m : Option Nat), r.loops = outer ++ l :: inner →
    (∀ x ∈ inner, x.last ≠ r.pc) → l.last = r.pc →
    (1 < l.count → r.advanced none m = { r with
      pc := l.first, loops := outer ++ { l with count := l.count - 1 } :: inner, mode := r.pendingMode.getD r.mode
      pendingMode := m }) ∧
    (l.count ≤ 1 → r.advanced none m = { r with loops := outer ++ inner }.advanced none m))

/-- O21. R366, R368, R370, R386: a matrix step without a fault, saturation not trapping: every element of every group that its
index names is the old sum, 0 for a group it opens, with the products of the step accumulated in order, each product of
byte x[xa] + i x[xas] + k and byte x[xb] + k x[xbs] + 32 n + j. DISCARD closes its groups. -/
def Obligations.MatrixSteps : Prop :=
  ∀ (p w : Nat) (r : Run) (ts : List Nat) (s : State), s.wf = true →
    (s.executes p 0x10 w r → r.indexTiles w = some ts → r.mmulCheck w ts = none → s.safe.badWords = [] →
      r.satTrap = false → (r.advanced none none).pc < r.plan.words →
      ∃ t q, exec (.mmul p) s = .next t ∧ t.runIn? p .running = some q ∧ t.tensorMem = s.tensorMem ∧ q.x = r.x ∧
        q.pc = (r.advanced none none).pc ∧
        ∀ n tile, ts[n]? = some tile → ∃ g, q.group? tile = some g ∧ ∀ i j, i < 32 → j < 32 →
          g.sums.getD (32 * i + j) 0 = ((List.range (bits w 18 12 + 1)).foldl
            (fun (a : Int × Bool) (k : Nat) => accStep a
              (byteAs (bit w 16) (cellGet s.tensorMem
                  ((r.xr (bits w 54 4) : Int) + toSigned 32 (r.xr (bits w 50 4)) * (i : Int) + (k : Int)).toNat) *
                byteAs (bit w 15) (cellGet s.tensorMem
                  ((r.xr (bits w 46 4) : Int) + toSigned 32 (r.xr (bits w 42 4)) * (k : Int) +
                    ((32 * n + j : Nat) : Int)).toNat)))
            (if bit w 17 then 0 else match r.group? tile with | some h => h.sums.getD (32 * i + j) 0 | none => 0, false)).1) ∧
    (s.executes p 0x12 w r → r.indexTiles w = some ts → (∀ tile ∈ ts, (r.group? tile).isSome = true) →
      (r.advanced none none).pc < r.plan.words →
      ∃ t q, exec (.discard p) s = .next t ∧ t.runIn? p .running = some q ∧ t.tensorMem = s.tensorMem ∧ q.x = r.x ∧
        q.pc = (r.advanced none none).pc ∧ (∀ tile ∈ ts, q.group? tile = none) ∧
        ∀ tile, tile ∉ ts → q.group? tile = r.group? tile)

/-- O22. R371 to R374, R385, R388, R389: a POST without a fault writes its rows, one after the other, to its output rows and
nowhere else, and closes its groups unless it keeps them; rounding is half to even, and an element whose stages do not clamp
follows them in order. -/
def Obligations.PostWrites : Prop :=
  (∀ (p w : Nat) (r : Run) (ts : List Nat) (gs : List Group) (s : State), s.wf = true →
    s.executes p 0x11 w r → postIllegal w = false → r.tiles (r.xr (bits w 28 4)) = some ts → ts.mapM r.group? = some gs →
    r.postExtents w (32 * ts.length) = none → s.safe.badWords = [] → r.satTrap = false →
    (r.advanced none none).pc < r.plan.words →
    ∃ t q, exec (.post p) s = .next t ∧ t.runIn? p .running = some q ∧ q.x = r.x ∧
      q.pc = (r.advanced none none).pc ∧
      (∀ tile ∈ ts, (q.group? tile).isSome = bit w 56) ∧
      (∀ b : Nat, (∀ i, i < 32 → ∀ a : Int, a = (r.xr (bits w 52 4) : Int) + toSigned 32 (r.xr (bits w 48 4)) * (i : Int) →
          ¬(a ≤ b ∧ (b : Int) < a + (32 * ts.length * outSize (bits w 4 2) : Nat))) →
        cellGet t.tensorMem b = cellGet s.tensorMem b) ∧
      (∀ i row k, (s.postRows r w gs)[i]? = some row → k < 32 * ts.length * outSize (bits w 4 2) →
        (∀ j : Nat, i < j → j < 32 → ∀ d : Int, d = toSigned 32 (r.xr (bits w 48 4)) * ((j : Int) - (i : Int)) →
          ¬(d ≤ k ∧ (k : Int) < d + (32 * ts.length * outSize (bits w 4 2) : Nat))) →
        cellGet t.tensorMem (((r.xr (bits w 52 4) : Int) + toSigned 32 (r.xr (bits w 48 4)) * (i : Int)).toNat + k) =
          row.1.getD k 0)) ∧
  (∀ (x : Int) (n : Nat), 0 < n →
    2 * (rhe x n * 2 ^ n - x).natAbs ≤ 2 ^ n ∧ (2 * (rhe x n * 2 ^ n - x).natAbs = 2 ^ n → rhe x n % 2 = 0)) ∧
  (∀ x : Int, rhe x 0 = x) ∧
  (∀ (c : PostCfg) (sum m b : Int) (n : Nat) (r : Int), c.ew = 0 → c.table = none →
    (∀ y, (y = rhe (sum * m) n ∨ y = rhe (sum * m) n + b ∨ y = rhe (sum * m) n + b + c.z) →
      -2147483648 ≤ y ∧ y ≤ 2147483647) →
    (outLimits c.otype).1 ≤ rhe (sum * m) n + b + c.z → rhe (sum * m) n + b + c.z ≤ (outLimits c.otype).2 →
    postElement c sum m b n r = (rhe (sum * m) n + b + c.z, false)) ∧
  (∀ (c : PostCfg) (sum m b : Int) (n : Nat) (r : Int),
    (outLimits c.otype).1 ≤ (postElement c sum m b n r).1 ∧ (postElement c sum m b n r).1 ≤ (outLimits c.otype).2)

/-- O23. R383, R403, R405, R408, R409, R412: an illegal word raises 0x74: recorded with its pc, it ends the run invalid, or
halts it where halt_en is 1; resume runs a halted run on, end ends it with its cause. Tensor memory is as it was. -/
def Obligations.ComputeExceptions : Prop :=
  ∀ (p : Nat) (r : Run) (s : State), p < 16 →
    (s.npcClock = true → s.runIn? p .running = some r → wordIllegal (codeWord r.body r.pc) = true →
      s.badAt 3 (s.codeBase p + 8 * r.pc) 8 = none → s.on NPC_DBG_halt_en = false → s.npc.loads = [] →
      ∃ t, exec (.illegalInstruction p) s = .next t ∧ t.get (NPC_EXC_INFO_cause p) = 0x74 ∧
        t.get (NPC_EXC_INFO_pc p) = r.pc % 2 ^ 15 ∧ t.get (NPC_PROG_STAT_cause p) = 0x74 ∧
        t.on NPC_IRQ_STAT_exception = true ∧ t.tensorMem = s.tensorMem ∧
        t.npc.runs = s.npc.runs.filter fun q => !(q.prog == p && q.frame == r.frame)) ∧
    (s.npcClock = true → s.runIn? p .running = some r → wordIllegal (codeWord r.body r.pc) = true →
      s.badAt 3 (s.codeBase p + 8 * r.pc) 8 = none → s.on NPC_DBG_halt_en = true →
      (∀ q ∈ s.npc.runs, q.phase = .halted → q.prog ≠ p) →
      ∃ t, exec (.illegalInstruction p) s = .next t ∧
        t.runIn? p .halted = some { r with phase := .halted, cause := 0x74, trapped := false } ∧
        t.on NPC_IRQ_STAT_halted = true ∧ t.tensorMem = s.tensorMem) ∧
    (s.get NPC_DBG_prog = p → s.runIn? p .halted = some r → r.trapped = false → r.pc < r.plan.words →
      (∀ q ∈ s.npc.runs, q.phase = .running → q.prog ≠ p) →
      ∃ t, exec .resume s = .next t ∧ t.runIn? p .running = some { r with
        phase := .running, cause := 0, trapped := false, delayed := true } ∧ t.tensorMem = s.tensorMem) ∧
    (s.get NPC_DBG_prog = p → s.runIn? p .halted = some r → s.npc.loads = [] →
      ∃ t, exec .npcDbgEnd s = .next t ∧ t.get (NPC_PROG_STAT_cause p) = r.cause % 256 ∧ t.tensorMem = s.tensorMem ∧
        t.npc.runs = s.npc.runs.filter fun q => !(q.prog == p && q.frame == r.frame))

/-- O24. R380: a host write of a word of tensor memory is applied outside the programs' regions, or anywhere while compute is
disabled and no run is in progress, and changes these four bytes only; else nothing changes. -/
def Obligations.TensorHostWrite : Prop :=
  ∀ (a : Nat) (v : Word) (s : State), a < 2 ^ 20 → s.wf = true →
    ((∀ g ∈ s.tensorRegions, 4 * a + 4 ≤ g.1 ∨ g.1 + g.2 ≤ 4 * a) ∨
        (s.lon NPC_CTRL_en = false ∧ ∀ r ∈ s.npc.runs, r.holds = false) →
      ∃ t, exec (.tensorWrite (4 * a) v) s = .next t ∧ s.keeps t [.tensorMem, .safe] [] ∧
        ∀ b, cellGet t.tensorMem b =
          if 4 * a ≤ b ∧ b < 4 * a + 4 then BitVec.ofNat 8 (v.toNat / 2 ^ (8 * (b - 4 * a))) else cellGet s.tensorMem b) ∧
    ((∃ g ∈ s.tensorRegions, g.1 < 4 * a + 4 ∧ 4 * a < g.1 + g.2) ∧
        (s.lon NPC_CTRL_en = true ∨ ∃ r ∈ s.npc.runs, r.holds = true) →
      exec (.tensorWrite (4 * a) v) s = .next s)

/-- O25. R459, R465 to R470, R474: the commands of the Arcade: re-arm, freeze, replay and the end of a pass on a region that
exists, in the states that allow them; a reserved op returns 0xD9.
The model's own: notes/assumptions/78.md. -/
def Obligations.ArcadeCommands : Prop :=
  (∀ (r : Nat) (d : RegionDef) (s : State), s.arcAlone → s.regionDef? r = some d → s.arc.frozenNow.contains r = false →
    s.freezeFollows r = false → (s.region r).pass = none →
    ∃ t, exec (.arcRearm r) s = .next t ∧ t.regionState r = 1 ∧ t.region r = { abandoned := (s.region r).abandoned } ∧
      t.get ARC_CMD_RESULT_cause = 0 ∧
      t.get (ARC_REG_STATE_generation r) = (s.get (ARC_REG_STATE_generation r) + 1) % 256 ∧
      t.arcadeMem = s.arcadeMem) ∧
  (∀ (r : Nat) (d : RegionDef) (s : State), s.pending.contains .freezeTheArcade = false → s.regionDef? r = some d →
    s.regionState r = 1 →
    ∃ t, exec (.arcFreeze r) s = .next t ∧ t.regionState r = 2 ∧ t.get ARC_CMD_RESULT_cause = 0 ∧
      t.get64 (aARC_REG_TRIG_STAMP_LO r) (aARC_REG_TRIG_STAMP_HI r) = s.now ∧ t.on ARC_IRQ_STAT_triggered = true ∧
      (∀ x, (s.region r).storing = some x →
        t.trigFrame r = x.number % 2 ^ 64 ∧ (t.region r).trigNext = false) ∧
      ((s.region r).storing = none → (t.region r).trigNext = true) ∧ (t.region r).postLeft = d.post + 1 ∧
      t.arcadeMem = s.arcadeMem) ∧
  (∀ (r : Nat) (d : RegionDef) (s : State), s.arcAlone → s.regionDef? r = some d → s.regionState r = 3 → s.rangeSlots r d ≠ [] →
    (∀ e ∈ s.regionDefs, e.1 ≠ r → e.2.ring = d.ring → (s.region e.1).pass = none) →
    ∃ t, exec (.arcReplay r) s = .next t ∧ (t.region r).pass = some (s.rangeSlots r d) ∧
      t.get (ARC_REG_STATE_pass r) = (s.get (ARC_REG_STATE_pass r) + 1) % 65536 ∧
      t.get (ARC_REG_STATE_passing r) = 1 ∧ t.get ARC_STATUS_pass_running = 1 ∧ t.get ARC_CMD_RESULT_cause = 0) ∧
  (∀ (r : Nat) (d : RegionDef) (s : State), s.arcAlone → s.regionDef? r = some d → (s.region r).pass.isSome = true →
    ((s.region r).sending = none →
      ∃ t, exec (.arcEndPass r) s = .next t ∧ (t.region r).pass = none ∧ t.get (ARC_REG_STATE_passing r) = 0 ∧
        t.on ARC_IRQ_STAT_replay_done = true ∧ t.get ARC_CMD_RESULT_cause = 0) ∧
    ((s.region r).sending.isSome = true →
      ∃ t, exec (.arcEndPass r) s = .next t ∧ t.region r = { s.region r with ending := true } ∧
        t.get ARC_CMD_RESULT_cause = 0)) ∧
  (∀ (op r : Nat) (s : State), 5 ≤ op →
    ∃ t, exec (.arcCmdReservedOp op r) s = .next t ∧ t.get ARC_CMD_RESULT_cause = 0xD9 ∧
      t.on ARC_IRQ_STAT_cmd_refused = true ∧ t.arc = s.arc)

/-- O26. R465, R466, R468, R469: a command on a region that does not exist returns 0xD0; a re-arm during a pass 0xD3, and one
that meets a freeze of its cycle 0xD3, counted; a freeze
outside RECORDING 0xD1, counted; a replay outside FROZEN 0xD1, of an empty range 0xD2, on a busy ring 0xD4. Nothing is
sent.
The model's own: notes/assumptions/78.md. -/
def Obligations.ArcadeRefusals : Prop :=
  ∀ (r : Nat) (s : State), s.arcAlone →
    (s.regionDef? r = none → ∀ c ∈ [Instr.arcRearm r, .arcFreeze r, .arcReplay r, .arcEndPass r],
      ∃ t, exec c s = .next t ∧ t.get ARC_CMD_RESULT_cause = 0xD0 ∧ t.on ARC_IRQ_STAT_cmd_refused = true ∧
        t.arc = s.arc ∧ t.rings = s.rings) ∧
    ∀ d, s.regionDef? r = some d →
      (s.arc.frozenNow.contains r = false → s.freezeFollows r = false → (s.region r).pass.isSome = true →
        ∃ t, exec (.arcRearm r) s = .next t ∧ t.get ARC_CMD_RESULT_cause = 0xD3 ∧ t.regionState r = s.regionState r ∧
          t.arc = s.arc) ∧
      (s.arc.frozenNow.contains r = true ∨ s.freezeFollows r = true →
        ∃ t, exec (.arcRearm r) s = .next t ∧ t.get ARC_CMD_RESULT_cause = 0xD3 ∧ t.regionState r = s.regionState r ∧
          t.get (ARC_REG_COUNTS_rearm_ignored r) = satAdd 16 (s.get (ARC_REG_COUNTS_rearm_ignored r)) 1 ∧
          t.arc = s.arc) ∧
      (s.regionState r ≠ 1 →
        ∃ t, exec (.arcFreeze r) s = .next t ∧ t.get ARC_CMD_RESULT_cause = 0xD1 ∧ t.regionState r = s.regionState r ∧
          t.get (ARC_REG_COUNTS_freeze_ignored r) = satAdd 16 (s.get (ARC_REG_COUNTS_freeze_ignored r)) 1) ∧
      (s.regionState r ≠ 3 →
        ∃ t, exec (.arcReplay r) s = .next t ∧ t.get ARC_CMD_RESULT_cause = 0xD1 ∧ t.arc = s.arc ∧ t.rings = s.rings) ∧
      (s.regionState r = 3 → s.rangeSlots r d = [] →
        ∃ t, exec (.arcReplay r) s = .next t ∧ t.get ARC_CMD_RESULT_cause = 0xD2 ∧ t.arc = s.arc ∧ t.rings = s.rings) ∧
      (s.regionState r = 3 → s.rangeSlots r d ≠ [] →
        (∃ e ∈ s.regionDefs, e.1 ≠ r ∧ e.2.ring = d.ring ∧ (s.region e.1).pass.isSome = true) →
        ∃ t, exec (.arcReplay r) s = .next t ∧ t.get ARC_CMD_RESULT_cause = 0xD4 ∧ t.arc = s.arc ∧ t.rings = s.rings)

/-- O27. R458, R463, R467, R471 to R475, R478: a frame completes with what waited of its rows and its header in state 2; a
pass offers its next frame when its ring can accept it: its frame start leaves and its rows wait to be read; a host fetch brings
the 64 bytes of its line, with a mark where a word of them holds an uncorrectable error.
The model's own: notes/assumptions/5.md and notes/assumptions/6.md. -/
def Obligations.ArcadeEvents : Prop :=
  (∀ (r : Nat) (d : RegionDef) (x : Storing) (s : State), s.regionDef? r = some d → (s.region r).storing = some x →
    x.whole = true → s.wf = true →
    ∃ t, exec (.arcFrameComplete r) s = .next t ∧ (t.region r).storing = none ∧
      (t.region r).stored = (s.region r).stored + 1 ∧ (t.region r).abandoned = 0 ∧ t.intake d.writer = [] ∧
      cellGet t.arcadeMem (d.slotAt x.slot) = 2#8 ∧
      ∀ a, a < d.slotAt x.slot ∨ d.slotAt x.slot + 64 ≤ a →
        cellGet t.arcadeMem a = cellGet (s.drain d.writer (intakeBytes (s.intake d.writer))).arcadeMem a) ∧
  (∀ (r i : Nat) (rest : List Nat) (errors : List (Nat × Nat)) (d : RegionDef) (h : Slot) (s : State),
    s.regionDef? r = some d → (s.region r).pass = some (i :: rest) → (s.region r).sending = none → h = s.slot d i →
    (s.ring d.ring).restore = false → s.acceptsReplay d.ring (replayBytes h) = true → 0 < h.rows → 0 < h.bytes →
    ∃ t x, exec (.replayFrameOffer r errors) s = .next t ∧ (t.region r).pass = some rest ∧
      (t.region r).sending = some x ∧ x.slot = i ∧ x.left = h.bytes ∧ x.row = 0 ∧ t.arcadeMem = s.arcadeMem ∧
      ∃ p, p ∈ (t.ring d.ring).spool ∧ p.type = 1 ∧ p.frame = h.number % 2 ^ 32) ∧
  (∀ (l : Nat) (s : State), l < 2 ^ 20 →
    ∃ t, exec (.arcHostFetch l) s = .next t ∧ t.get ARC_HOST_ADDR_line = l ∧ t.get ARC_HOST_STATUS_ready = 0 ∧
      t.arc.fetching = true) ∧
  (∀ (errors : List (Nat × Nat)) (s : State), s.arc.fetching = true → s.wf = true →
    ∃ t, exec (.arcHostFetchDone errors) s = .next t ∧ t.get ARC_HOST_STATUS_ready = 1 ∧
      t.get ARC_HOST_STATUS_ecc_error = b2n (!(t.badIn (64 * s.get ARC_HOST_ADDR_line) 64).isEmpty) ∧
      (∀ k, k < 16 → (t.reg (aARC_HOST_BUF k)).toNat =
        leNat (cellsRead t.arcadeMem (64 * s.get ARC_HOST_ADDR_line + 4 * k) 4)) ∧
      t.arc.fetching = false ∧ ((∀ e ∈ errors, e.2 ≤ 1) → t.arcadeMem = s.arcadeMem ∧ t.arc.badWords = s.arc.badWords))

/-- O28. R476 to R478, R650 to R652: a slot of a scrubber reads the next line and moves on: a word with one bit in error is
counted, and its line waits to be written back; one with more is counted, recorded, reported and raises its bit of
SAFE_FAULT_STAT; in the staging region it ends a load. A deferral that expires takes the same slot.
The model's own: notes/assumptions/2.md, notes/assumptions/6.md and notes/assumptions/66.md. -/
def Obligations.Scrubbing : Prop :=
  (∀ (w n line : Nat) (s : State), s.portsDead = false → line = s.arc.scrub.next → s.badIn line 64 = [] →
    (n ≤ 1 →
      ∃ t, exec (.arcScrub w n) s = .next t ∧ t.get ARC_SCRUB_corrected = satAdd 16 (s.get ARC_SCRUB_corrected) n ∧
        t.arcadeMem = s.arcadeMem ∧ t.arc = { s.arc with scrub := s.arc.scrub.took (2 ^ 26) n } ∧
        t.get ARC_SCRUB_passes = if s.arc.scrub.again = none ∧ line = 2 ^ 26 - 64 then
          (s.get ARC_SCRUB_passes + 1) % 65536 else s.get ARC_SCRUB_passes) ∧
    (2 ≤ n → s.cfg.load = none → s.wf = true → ∀ a, a = line + 8 * (w % 8) →
      ∃ t, exec (.arcScrub w n) s = .next t ∧ t.get ARC_ECC_uncorrectable = satAdd 16 (s.get ARC_ECC_uncorrectable) 1 ∧
        t.on ARC_IRQ_STAT_ecc = true ∧ t.arc.badWords = a :: s.arc.badWords ∧
        t.arc.scrub = s.arc.scrub.took (2 ^ 26) n ∧ bit (t.get SAFE_FAULT_STAT_warn) 3 = true ∧
        (∀ b, b < a ∨ a + 8 ≤ b → cellGet t.arcadeMem b = cellGet s.arcadeMem b) ∧
        (s.safe.log.length < 511 → (t.reg (aSAFE_LOG_LAST 0)).toNat % 256 =
          if (s.regionAt a).isSome then 0xD6 else 0xD9)) ∧
    (∀ l, 2 ≤ n → s.cfg.load = some l → l.boot = false → stageBase ≤ line →
      ∃ t, exec (.arcScrub w n) s = .next t ∧ t.cfg.load = none ∧ t.get CFG_LOAD_STATUS_busy = 0 ∧
        t.get CFG_LOAD_STATUS_cause = 0x3E ∧ t.cfg.sections = s.cfg.sections)) ∧
  (∀ (f : Scrub) (s : State), s.portsDead = false → 1 ≤ f.memory → f.memory ≤ 10 →
    (f.errorBits ≤ 1 →
      ∃ t, exec (.sramScrub f) s = .next t ∧ t.get SAFE_ECC_corrected = satAdd 16 (s.get SAFE_ECC_corrected) f.errorBits ∧
        t.sweep f.memory = (s.sweep f.memory).took (sramSize f.memory) f.errorBits ∧
        t.safe.badWords = s.safe.badWords) ∧
    (2 ≤ f.errorBits → ∀ a, a = (s.sweep f.memory).next + 8 * (f.word % 8) →
      ∃ t, exec (.sramScrub f) s = .next t ∧ t.get SAFE_ECC_uncorrectable = satAdd 16 (s.get SAFE_ECC_uncorrectable) 1 ∧
        t.get SAFE_ECC_LAST_memory = f.memory ∧ t.get SAFE_ECC_LAST_line = a / 64 % 2 ^ 26 ∧
        t.sweep f.memory = (s.sweep f.memory).took (sramSize f.memory) f.errorBits ∧
        bit (t.get SAFE_FAULT_STAT_fault) (if f.memory = 6 then 2 else 1) = true ∧
        t.safe.supervisorDead = (s.safe.supervisorDead || decide (f.memory = 6)) ∧
        (f.memory ≤ 3 → (t.badAt f.memory a 1).isSome = true) ∧
        (s.safe.log.length < 511 → (t.reg (aSAFE_LOG_LAST 0)).toNat % 256 =
          if f.memory ≤ 3 then 0x84 else if f.memory = 4 then 0x85 else if f.memory = 5 then 0x86
          else if f.memory = 6 then 0x88 else 0x87))) ∧
  (∀ (f : Scrub) (s : State), f.memory ≠ 0 → exec (.scrubDeferralExpiry f) s = exec (.sramScrub f) s) ∧
  (∀ (f : Scrub) (s : State), f.memory = 0 → exec (.scrubDeferralExpiry f) s = exec (.arcScrub f.word f.errorBits) s)

/-- O29. R568 to R574, R577: a start request in mode 1 on a core that is enabled, clocked and idle makes one conversion
wanted; it starts on a free core; modes 2 and 3 stop; the core powers down; interleaving changes with both cores free.
The model's own: notes/assumptions/29.md. -/
def Obligations.HousekeepingControl : Prop :=
  (∀ (c : Nat) (i : Instr) (s : State), c < 2 →
    (i = .hkStart c ∨ (i = .hkPinStart c ∧ s.get (HKA_CORE_CFG_pin_src c) < 4 ∧ (s.hk.inter = false ∨ c = 0)) ∨
      (i = .startAConversion c ∧ s.due (4 + c) ≠ [])) →
    s.hkMode c = 1 → s.on HKA_CTRL_en = true → s.hkRuns = true → (s.hkCore (s.hkLead c)).want = false →
    (s.hkCore (s.hkTurn c)).conv = none → (s.hkCore (s.hkLead c)).lastReq ≠ some s.cycle →
    ∃ t, exec i s = .next t ∧
      t.hkCore (s.hkLead c) = { s.hkCore (s.hkLead c) with lastReq := some s.cycle, want := true, pending := false }) ∧
  (∀ (c : Nat) (s : State), c < 2 → s.hkMode c = 0 ∨ s.on HKA_CTRL_en = false ∨ s.hkRuns = false →
    ∃ t, exec (.hkStart c) s = .next t ∧ t.hk = s.hk ∧ t.get HKA_STATUS_cause = 0xC0 ∧
      t.get (HKA_CORE_COUNT_refused c) = satAdd 16 (s.get (HKA_CORE_COUNT_refused c)) 1 ∧
      t.on HKA_IRQ_STAT_refused = true) ∧
  (∀ (c : Nat) (s : State), c < 2 → (s.hkCore (s.hkLead c)).running = true →
    ∃ t, exec (.hkStop c) s = .next t ∧
      t.hkCore (s.hkLead c) = { s.hkCore (s.hkLead c) with running := false, want := false, late := false }) ∧
  (∀ (c : Nat) (s : State), c < 2 → s.hkFree c = true →
    ((s.hkCore (s.hkLead c)).want = true →
      ∃ t, exec (.hkConversionStart c) s = .next t ∧ (t.hkCore c).awake = true ∧
        (t.hkCore c).conv = some { ch := s.get (HKA_CORE_CFG_ch (s.hkLead c)), deferred := (s.hkCore (s.hkLead c)).late } ∧
        (t.hkCore (s.hkLead c)).want = false) ∧
    ((s.hkCore (s.hkLead c)).running = true → s.hkMode c = 3 → (s.hkCore (s.hkLead c)).forced = none →
      ∃ t, exec (.hkPeriodicGrid c) s = .next t ∧
        (t.hkCore c).conv = some { ch := s.get (HKA_CORE_CFG_ch (s.hkLead c)), deferred := (s.hkCore (s.hkLead c)).late })) ∧
  (∀ (c : Nat) (s : State), c < 2 → (s.hkCore c).conv = none → (s.hkCore (s.hkLead c)).want = false →
    ∃ t, exec (.hkPowerDown c) s = .next t ∧ t.hkCore c = { s.hkCore c with awake := false }) ∧
  (∀ s : State, s.hk.inter ≠ s.on HKA_CTRL_interleave →
    (∀ k ∈ [s.hk.a, s.hk.b], k.conv = none ∧ k.want = false ∧ k.pending = false ∧ k.running = false) →
    ∃ t, exec .interleaveChange s = .next t ∧ t.hk = { s.hk with inter := s.on HKA_CTRL_interleave, turn := 0 })

/-- O30. R305, R568, R580, R585, R588, R589: a conversion's result enters its channel's register and may take a window out of
band; a calibration step advances its core; a packet of the oldest entries leaves.
The model's own: notes/assumptions/27.md. -/
def Obligations.HousekeepingResults : Prop :=
  (∀ (c d : Nat) (v : HkConv) (s : State), c < 2 → s.hkRuns = true → (s.hkCore c).conv = some v → v.check = false →
    v.ch < 32 →
    ∃ t, exec (.hkResult c d) s = .next t ∧
      t.get (HKA_RESULT_result v.ch) = (codeOf ((s.hkCore c).combine (d % 2 ^ 14))).toNat ∧
      t.get (HKA_RESULT_valid v.ch) = 1 ∧ t.get (HKA_RESULT_core v.ch) = c ∧
      t.get (HKA_RESULT_count v.ch) = (s.get (HKA_RESULT_count v.ch) + 1) % 65536 ∧
      t.on (if c = 0 then HKA_IRQ_STAT_done0 else HKA_IRQ_STAT_done1) = true ∧
      ∀ w r, w < 8 → w ∈ s.winsOn v.ch → s.on (HKA_WIN_STAT_out w) = false →
        r = (codeOf ((s.hkCore c).combine (d % 2 ^ 14))).toNat → s.get (HKA_WIN_LIMITS_hi w) < r →
        t.get (HKA_WIN_STAT_out w) = 1 ∧ t.get (HKA_WIN_STAT_above w) = 1 ∧ t.get (HKA_WIN_STAT_exit_result w) = r ∧
          t.level (30 + w) = true ∧ bit (t.get HKA_IRQ_STAT_win_exit) w = true) ∧
  (∀ (c d : Nat) (s : State), c < 2 → s.on HKA_CTRL_en = true → s.hkRuns = true → (s.hkCore c).conv = none →
    s.hk.vadLast = none → s.supply.episodes = [] →
    ((s.hkCore (s.hkLead c)).want = false → (s.hkCore (s.hkLead c)).pending = false →
        ((s.hkCore (s.hkLead c)).running = false ∨ s.hkMode c ≠ 2) →
      ∃ t, exec (.hkCalDue c d) s = .next t ∧ (t.hkCore c).k = ((s.hkCore c).k + 1) % 16 ∧
        (t.hkCore c).calDue = false ∧ (t.hkCore c).change.isSome = true) ∧
    ((s.hkCore c).calDue = true →
      ∃ t, exec (.hkCalForced c d) s = .next t ∧ (t.hkCore c).k = ((s.hkCore c).k + 1) % 16 ∧
        (t.hkCore c).calDue = false ∧ t.get HKA_CAL_forced = satAdd 16 (s.get HKA_CAL_forced) 1)) ∧
  (∀ (c d : Nat) (s : State), c < 2 → s.on HKA_CTRL_en = true → s.hkRuns = true → (s.hkCore c).conv.isSome = true →
    ∃ t, exec (.hkCalDue c d) s = .next t ∧ t.hkCore c = { s.hkCore c with calDue := true }) ∧
  (∀ s : State, s.has 0x0B 0 = true → s.hk.buf ≠ [] → 0 < leAt s.hkaBody 2 2 →
    s.monitorRoom (min (leAt s.hkaBody 2 2) s.hk.buf.length) = true →
    ∃ t p, exec .monitorPacketAge s = .next t ∧
      t.hk.buf = s.hk.buf.drop (min (leAt s.hkaBody 2 2) s.hk.buf.length) ∧
      p ∈ (t.ring (leAt s.hkaBody 1 1)).spool ∧ p.type = 6 ∧ p.seq = s.get (RING_SEQ_next (leAt s.hkaBody 1 1)))

/-- O31. R597 to R600, R602, R605, R607, R610: each instruction of a pin engine, latched and able to complete, has its effect
and goes on to the next word; BR, and MOVE to pc, go to their target. -/
def Obligations.PinInstructions : Prop :=
  ∀ (n w : Nat) (e : PioEng) (s : State),
    (s.pioAt n 0 w e → s.pioCompletes (.pioNop n) n w e) ∧
    (s.pioAt n 1 w e →
      (s.pioCond n (bits w 8 4) = true → ∃ t, exec (.pioBr n) s = .next t ∧ t.get (PIO_ENG_PC_pc n) = bits w 0 6 ∧
        (t.eng n).latched = none ∧ (t.eng n).signal = (e.signal && bits w 8 4 != 7)) ∧
      (s.pioCond n (bits w 8 4) = false → s.pioCompletes (.pioBr n) n w e)) ∧
    (s.pioAt n 2 w e →
      (s.awaitMet n w = true → s.pioCompletes (.await n) n w { e with signal := e.signal && bits w 8 4 != 2 }) ∧
      (s.awaitMet n w = false → ∃ t, exec (.await n) s = .next t ∧ t.eng n = { e with stall := 1 } ∧
        t.get (PIO_ENG_PC_pc n) = s.get (PIO_ENG_PC_pc n))) ∧
    (s.pioAt n 3 w e → ∃ t, exec (.rep n) s = .next t ∧ t.get (PIO_ENG_PC_pc n) = s.pcNext n % 64 ∧
      t.eng n = { e.finished (s.dwellOf n w) with
        dwellOwn := false
        rep := if bit w 16 then e.v (bit w 0) + 1 else if bits w 0 16 = 0 then 65536 else bits w 0 16 }) ∧
    (s.pioAt n 4 w e → s.pioCompletes (.setv n) n w (e.setV (bit w 16) (bits w 0 16))) ∧
    (s.pioAt n 5 w e →
      (bits w 8 4 = 2 → s.pioCompletes (.move n) n w (e.setV false (s.moveValue n w))) ∧
      (bits w 8 4 = 3 → s.pioCompletes (.move n) n w (e.setV true (s.moveValue n w))) ∧
      (bits w 8 4 = 4 → s.pioCompletes (.move n) n w { e with sr := s.moveValue n w }) ∧
      (bits w 8 4 = 6 → s.pioCompletes (.move n) n w { e with count := min 32 (s.moveValue n w % 64) }) ∧
      (bits w 8 4 = 5 → s.moveValue n w % 64 < s.pioLen n → ∃ t, exec (.move n) s = .next t ∧
        t.get (PIO_ENG_PC_pc n) = s.moveValue n w % 64 ∧ t.pioOn n = s.pioOn n) ∧
      (bits w 8 4 = 0 ∨ bits w 8 4 = 1 → s.pioCompletes (.move n) n w e)) ∧
    (s.pioAt n 6 w e → s.pioFlag n 2 = false → s.pioFlag n 1 = true → e.taken = 0 →
      s.pioCompletes (.shift n) n w { e with
        count := min 32 (e.count + bits w 0 5 + 1)
        sr := (e.sr / 2 ^ (bits w 0 5 + 1) + s.laneIn n 0 (bits w 0 5 + 1) * 2 ^ (31 - bits w 0 5)) % 2 ^ 32 }) ∧
    (∀ x q, s.pioAt n 7 w e → e.tx = x :: q → 0 < s.pioTxDepth n → e.rx.length < s.pioRxDepth n →
      s.pioCompletes (.xchg n) n w { e with rx := e.rx ++ [e.sr], tx := q, sr := x, last := x, count := 0 }) ∧
    (∀ x q, s.pioAt n 8 w e → e.tx = x :: q →
      s.pioCompletes (.pioLoad n) n w { e with tx := q, sr := x, last := x, count := 0 }) ∧
    (s.pioAt n 9 w e → e.rx.length < s.pioRxDepth n → s.pioCompletes (.store n) n w { e with rx := e.rx ++ [e.sr] }) ∧
    (s.pioAt n 10 w e → ∃ t, exec (.flag n) s = .next t ∧ t.get (PIO_ENG_PC_pc n) = s.pcNext n % 64 ∧
      t.level (50 + 2 * n + bits w 4 1) =
        (if bits w 0 2 = 0 then false else if bits w 0 2 = 3 then !bit e.flags (bits w 4 1) else true) ∧
      (bits w 0 2 = 2 → bit (t.get PIO_IRQ_STAT_flag_irq) n = true)) ∧
    (s.pioAt n 11 w e → s.pioCompletes (.addv n) n w (e.setV (bit w 16) (e.v (bit w 16) + bits w 0 16)))

/-- O32. R597, R601, R606, R612, R616: a step of an engine: a dwell passes, a pending injection or the word at pc is latched, a
pc past the code halts the engine; a stall ends when its condition holds; a vectored jump. -/
def Obligations.PinSteps : Prop :=
  (∀ (n pins : Nat) (s : State), s.pioExists n = true → s.pioRuns = true → (s.eng n).latched = none →
    (s.pioOn n = true ∨ (s.eng n).dwellOwn = true → 0 < (s.eng n).dwell →
      ∃ t, exec (.pioStep n pins) s = .next t ∧ t.eng n = { s.eng n with dwell := (s.eng n).dwell - 1 } ∧
        t.get PIO_PIN_IN_level = pins % 65536) ∧
    (∀ w, (s.eng n).dwell = 0 → (s.eng n).inject = some w →
      ∃ t, exec (.pioStep n pins) s = .next t ∧ (t.eng n).inject = none ∧ (t.eng n).latched = some (w, true)) ∧
    (s.pioOn n = true → (s.eng n).dwell = 0 → (s.eng n).inject = none → s.get (PIO_ENG_PC_pc n) < s.pioLen n →
      ∃ t, exec (.pioStep n pins) s = .next t ∧
        (t.eng n).latched = some (s.pioCode n (s.get (PIO_ENG_PC_pc n)), false) ∧
        t.get (PIO_ENG_PC_pc n) = s.get (PIO_ENG_PC_pc n)) ∧
    (s.pioOn n = true → (s.eng n).dwell = 0 → (s.eng n).inject = none → s.pioLen n ≤ s.get (PIO_ENG_PC_pc n) →
      ∃ t, exec (.pioStep n pins) s = .next t ∧ t.pioOn n = false ∧ t.get (PIO_ENG_STAT_cause n) = 0xB1)) ∧
  (∀ (n pins w : Nat) (s : State), s.pioExists n = true → s.pioRuns = true → s.pioOn n = true →
    (s.eng n).latched = some (w, false) →
    (bits w 28 4 = 8 → (s.eng n).stall = 2 → (s.eng n).tx ≠ [] →
      ∃ t, exec (.stallEnd n pins) s = .next t ∧ (t.eng n).latched = none ∧ (t.eng n).stall = 0 ∧
        (t.eng n).tx = (s.eng n).tx.tail) ∧
    (bits w 28 4 = 9 → (s.eng n).stall = 3 → (s.eng n).rx.length < s.pioRxDepth n →
      ∃ t, exec (.stallEnd n pins) s = .next t ∧ (t.eng n).latched = none ∧ (t.eng n).stall = 0 ∧
        (t.eng n).rx = (s.eng n).rx ++ [(s.eng n).sr]) ∧
    (bits w 28 4 = 2 → (s.eng n).stall = 1 → bits w 8 4 = 0 → bits w 0 5 < 16 → bit pins (bits w 0 5) = bit w 15 →
      ∃ t, exec (.stallEnd n pins) s = .next t ∧ (t.eng n).latched = none ∧ (t.eng n).stall = 0)) ∧
  (∀ (n pins : Nat) (s : State), s.pioExists n = true → s.pioRuns = true → s.pioFlag n 3 = true → s.pioOn n = true →
    (s.eng n).signal = true → leAt (s.pioBody n) 3 1 < s.pioLen n → leAt (s.pioBody n) 3 1 < 64 →
    ∃ t, exec (.vectoredJump n pins) s = .next t ∧ (t.eng n).signal = false ∧ (t.eng n).sr = 0 ∧ (t.eng n).count = 0 ∧
      t.get (PIO_ENG_PC_pc n) = leAt (s.pioBody n) 3 1 ∧
      (t.eng n).latched = some (s.pioCode n (leAt (s.pioBody n) 3 1), false))

/-- O33. R609, R611, R613 to R618, R622: the host's control of the pin engines: run, restart, pc, injection and the FIFOs; a
signal; and the reset-level crossing of VDDIO1, which stops every engine.
The model's own: notes/assumptions/31.md. -/
def Obligations.PinHostControl : Prop :=
  (∀ (m n : Nat) (s : State), s.pioExists n = true → s.vddio1Low = false →
    ∃ t, exec (.pioRun m) s = .next t ∧ t.pioOn n = bit m n) ∧
  (∀ (m n : Nat) (s : State), s.pioExists n = true → bit m n = true →
    ∃ t, exec (.pioRestart m) s = .next t ∧
      t.get (PIO_ENG_PC_pc n) = (match (s.eng n).pcWrite with
        | some w => if w.1 = s.cycle then w.2 % 64 else leAt (s.pioBody n) 2 1 % 64
        | none => leAt (s.pioBody n) 2 1 % 64) ∧
      (t.eng n).v0 = 0 ∧ (t.eng n).v1 = 0 ∧ (t.eng n).sr = 0 ∧ (t.eng n).latched = none ∧ (t.eng n).signal = false ∧
      (t.eng n).tx = (s.eng n).tx ∧ (t.eng n).rx = (s.eng n).rx ∧ t.pioOn n = s.pioOn n) ∧
  (∀ (m : Nat) (s : State), exec (.pioSync m) s = .next s) ∧
  (∀ (n : Nat) (v : Word) (s : State), s.pioExists n = true →
    (v.toNat % 64 < s.pioLen n →
      ∃ t, exec (.pioPcWrite n v) s = .next t ∧ t.get (PIO_ENG_PC_pc n) = v.toNat % 64 ∧
        t.eng n = { (s.eng n).clearShift with pcWrite := some (s.cycle, v.toNat % 64) }) ∧
    (s.pioLen n ≤ v.toNat % 64 →
      ∃ t, exec (.pioPcWrite n v) s = .next t ∧ t.get (PIO_ENG_STAT_cause n) = 0xB6 ∧ t.pio = s.pio) ∧
    (pioLegal (leAt (s.pioBody n) 7 1) v.toNat = true → bits v.toNat 28 4 ≠ 3 → (s.eng n).inject = none →
      ∃ t, exec (.inject n v) s = .next t ∧ t.eng n = { s.eng n with inject := some v.toNat }) ∧
    (pioLegal (leAt (s.pioBody n) 7 1) v.toNat = false →
      ∃ t, exec (.inject n v) s = .next t ∧ t.get (PIO_ENG_STAT_cause n) = 0xB0 ∧ t.pio = s.pio) ∧
    ((s.eng n).tx.length < s.pioTxDepth n →
      ∃ t, exec (.pioTxfWrite n v) s = .next t ∧ t.eng n = { s.eng n with tx := (s.eng n).tx ++ [v.toNat] }) ∧
    (s.pioTxDepth n ≤ (s.eng n).tx.length →
      ∃ t, exec (.pioTxfWrite n v) s = .next t ∧ t.get (PIO_ENG_STAT_cause n) = 0xB2 ∧ t.pio = s.pio ∧
        t.on PIO_IRQ_STAT_fifo_error = true)) ∧
  (∀ (n : Nat) (s : State), s.pioExists n = true →
    (∀ x q, (s.eng n).rx = x :: q → ∃ t, exec (.pioRxfRead n) s = .next t ∧ t.eng n = { s.eng n with rx := q }) ∧
    ((s.eng n).rx = [] → ∃ t, exec (.pioRxfRead n) s = .next t ∧ t.get (PIO_ENG_STAT_cause n) = 0xB3 ∧ t.pio = s.pio) ∧
    (s.due (18 + n) ≠ [] → (s.eng n).signal = false →
      ∃ t, exec (.signalPinEngine n) s = .next t ∧ t.eng n = { s.eng n with signal := true })) ∧
  (∀ (mv : Nat) (s : State), s.portsDead = false → s.supply.straps.belowReset .vddio1 mv = true →
    ∃ t, exec (.vddio1ResetLevel mv) s = .next t ∧ ∀ n, s.pioExists n = true → t.pioOn n = false ∧ (t.eng n).tx = [] ∧ (t.eng n).rx = [] ∧
        (t.eng n).parked = true ∧ t.get (PIO_ENG_STAT_cause n) = 0xB8)

/-- O34. R53, R57, R60, R143, R145, R165, R187, R454: every reset with nothing that holds the device leaves all of it outside the
always-on island, the NVM, the test access port and the straps at its reset value, with its source; leaving EXTEST is one, and
TESTEN's fall. A rail above its reset level, or VDDIO1, resets nothing.
The model's own: notes/assumptions/3.md, notes/assumptions/41.md and notes/assumptions/75.md. -/
def Obligations.Resets : Prop :=
  (∀ (c : Instr) (src mv : Nat) (st : Straps) (r : Rail) (s : State), s.supply.resetbLow = false → s.supply.testen = false →
    s.supply.extest = false →
    (c = .coldReset mv ∧ s.supply.straps.belowReset .vddao mv = true ∧ src = 0) ∨
      (c = .supplyFailureReset .vddao mv ∧ s.supply.straps.belowReset .vddao mv = true ∧ src = 0) ∨
      (c = .supplyFailureReset r mv ∧ s.supply.straps.belowReset r mv = true ∧ r ≠ .vddao ∧ r ≠ .vddio1 ∧
        s.boot.phase ≠ .off ∧ src = 1) ∨
      (c = .resetbReset st ∧ src = 2) ∨ (c = .softwareReset 0xA5C3#32 ∧ s.portsDead = false ∧ src = 3) ∨
      (c = .bootRetry ∧ s.boot.phase = .failed ∧ src = 4) →
    ∃ t, exec c s = .next t ∧ s.restarted t src) ∧
  (∀ s : State, s.supply.resetbLow = false → s.supply.testen = true → s.supply.extest = false →
    ∃ t, exec (.testenHigh false) s = .next t ∧ s.restarted t 2 ∧ t.supply.testen = false) ∧
  (∀ (c : Instr) (pins preload tdi : List Bool) (op : Nat) (st : Straps) (s : State), s.supply.resetbLow = false →
    s.supply.testen = false → s.supply.extest = true →
    (c = .samplePreload pins preload st ∨ c = .testAccessPortReset st ∨ (c = .bypass op st tdi ∧ 2 ≤ op)) →
    ∃ t, exec c s = .next t ∧ s.restarted t 5 ∧ t.supply.extest = false ∧ t.supply.straps = st) ∧
  (∀ (r : Rail) (mv : Nat) (s : State), r = .vddio1 ∨ s.supply.straps.belowReset r mv = false →
    exec (.supplyFailureReset r mv) s = .next s ∧
      (s.supply.straps.belowReset .vddao mv = false → exec (.coldReset mv) s = .next s)) ∧
  (∀ (k : Word) (s : State), k ≠ 0xA5C3#32 → exec (.softwareReset k) s = .next s)

/-- O35. R48, R53 to R56, R677: RESETB low, TESTEN high and EXTEST hold the device in reset, where its ports answer nothing; the
test access port loads its registers, and selects BYPASS for every opcode that it does not decode but a private one while
TESTEN is high, where the spec describes nothing.
The model's own: notes/assumptions/69.md. -/
def Obligations.ResetHeldAndTestAccess : Prop :=
  (∀ s : State, ∀ c ∈ [Instr.resetbLow, .testenHigh true, .extest],
    ∃ t, exec c s = .next t ∧ t.boot.phase = .held ∧ t.portsDead = true ∧ t.sht = {} ∧
      t.supply.resetbLow = (s.supply.resetbLow || decide (c = .resetbLow)) ∧
      t.supply.testen = (s.supply.testen || decide (c = .testenHigh true)) ∧
      t.supply.extest = (s.supply.extest || decide (c = .extest))) ∧
  (∀ (pins preload : List Bool) (st : Straps) (s : State), s.supply.extest = false →
    ∃ t, exec (.samplePreload pins preload st) s = .next t ∧ s.keeps t [.supply] [] ∧
      t.supply = { s.supply with
        tapIr := 1, captured := boundaryCells pins, boundary := boundaryCells preload, tdo := boundaryCells pins }) ∧
  (∀ (st : Straps) (s : State), s.supply.extest = false →
    ∃ t, exec (.testAccessPortReset st) s = .next t ∧ s.keeps t [.supply] [] ∧ t.supply.tapIr = 0x3F) ∧
  (∀ (op : Nat) (st : Straps) (tdi : List Bool) (s : State), s.supply.extest = false → 2 ≤ op → op < 64 →
    s.supply.testen = false ∨ op / 16 ≠ 2 →
    ∃ t, exec (.bypass op st tdi) s = .next t ∧ s.keeps t [.supply] [] ∧ t.supply.tapIr = op ∧
      t.supply.tdo = (false :: tdi).take tdi.length) ∧
  (∀ s : State, s.supply.testen = false → exec (.testenHigh false) s = .next s) ∧
  (∀ (op : Nat) (st : Straps) (tdi : List Bool) (s : State), 2 ≤ op → s.supply.testen = true → op / 16 = 2 →
    exec (.bypass op st tdi) s = .refused (.privateInstruction op))

/-- O36. R57 to R59, R653 to R656, R662: a dip counts; an episode starts once per rail, with its stamp, its count, its warning bit
and its interrupt, ends with its duration, and at its limit raises fault bit 0.
The model's own: notes/assumptions/60.md. -/
def Obligations.SupplyEpisodes : Prop :=
  (∀ (r : Rail) (k : Nat) (s : State), s.portsDead = false → k < 32 → s.on (CNT_CFG_en k) = true →
    s.get (CNT_CFG_source k) = 96 + (railNum r + 7) % 8 → s.cnt.counted.contains k = false →
    ∃ t, exec (.supplyGlitch r) s = .next t ∧ t.counter k = (s.counter k + 1) % 2 ^ 48) ∧
  (∀ (r : Rail) (mv : Nat) (s : State), s.portsDead = false → s.supply.straps.belowWarning r mv = true →
    (∀ e ∈ s.supply.episodes, e.rail ≠ railNum r) →
    ∃ t, exec (.brownoutEpisodeStart r mv) s = .next t ∧
      t.supply.episodes = s.supply.episodes ++ [{
        rail := railNum r, stamp := (s.now + 2 ^ 64 - usUnit) % 2 ^ 64
        limitDone := decide (s.get SAFE_BROWNOUT_LIMIT_us = 0) }] ∧
      bit (t.get SAFE_SUPPLY_warning) (railNum r) = true ∧ t.get SAFE_EPISODES_last_rail = railNum r ∧
      t.get SAFE_EPISODES_count = (s.get SAFE_EPISODES_count + 1) % 65536 ∧ t.on SAFE_IRQ_STAT_episode = true ∧
      t.level 95 = true) ∧
  (∀ (r : Rail) (mv : Nat) (e : Episode) (s : State), (s.supply.episodes.find? fun e => e.rail == railNum r) = some e →
    s.supply.straps.recovered r mv = true →
    ∃ t, exec (.brownoutEpisodeEnd r mv) s = .next t ∧
      t.supply.episodes = (s.supply.episodes.filter fun e => e.rail != railNum r) ∧
      t.get SAFE_EPISODE_LAST_us = min (s.usSince e.stamp) (2 ^ 32 - 1) ∧
      bit (t.get SAFE_SUPPLY_warning) (railNum r) = false) ∧
  (∀ (r : Rail) (e : Episode) (s : State), e ∈ s.supply.episodes → e.rail = railNum r → e.limitDone = false →
    ∃ t, exec (.brownoutLimitExpiry r) s = .next t ∧ bit (t.get SAFE_FAULT_STAT_fault) 0 = true ∧
      ∀ x ∈ t.supply.episodes, x.rail = railNum r → x.limitDone = true)

/-- O37. R625, R630 to R634, R637, R639, R642: PWR_CMD starts the first step towards its target or refuses the command; each step
enters its state; OFF keeps the NVM alone; wakes start the device or the step out of SLEEP.
The model's own: notes/assumptions/43.md and notes/assumptions/68.md. -/
def Obligations.PowerStates : Prop :=
  (∀ (v : Word) (k : Nat) (s : State), s.booted = true → k = bits v.toNat 0 3 → k ≤ 4 →
    (k = 0 → bits v.toNat 8 8 = 0x4F) → s.pwr.step = none → s.power ≠ k → s.power ≤ 4 →
    (s.power = 2 → k = 1 → s.passRuns = false ∧ (s.linkState = 0 ∨ s.inL2 = true)) →
    (s.power = 3 → k = 4 → s.linkState ≠ 5) →
    ∃ t, exec (.pwrCmd v) s = .next t ∧ t.pwr.step = some (nextPower s.power k) ∧ t.get PWR_STATUS_busy = 1 ∧
      t.get PWR_STATUS_target = k ∧ t.power = s.power) ∧
  (∀ (v : Word) (s : State), s.booted = true →
    4 < bits v.toNat 0 3 ∨ (bits v.toNat 0 3 = 0 ∧ bits v.toNat 8 8 ≠ 0x4F) →
    ∃ t, exec (.pwrCmd v) s = .next t ∧ t.get PWR_STATUS_result = 1 ∧ t.on PWR_IRQ_STAT_refused = true ∧
      t.pwr = s.pwr ∧ t.power = s.power) ∧
  (∀ s : State, s.stepIs 4 3 = true → s.sht.reading = false → s.sht.phase = 0 → s.sht.accepted = false →
    ∃ t, exec .streamToReady s = .next t ∧ t.power = 3) ∧
  (∀ s : State, s.stepIs 3 2 = true → (∀ r ∈ s.npc.runs, r.phase = .waiting) → s.nvm.running = none →
    ∃ t, exec .readyToStandby s = .next t ∧ t.power = 2) ∧
  (∀ s : State, s.stepIs 2 1 = true → s.passRuns = false → (s.linkState = 0 ∨ s.inL2 = true) → s.nvm.running = none →
    s.cfg.load = none → ∃ t, exec .standbyToSleep s = .next t ∧ t.power = 1 ∧ t.get TIME_STATUS_synced = 0) ∧
  (∀ s : State, s.stepIs 1 2 = true → s.clk.a.locked = true ∨ s.clk.a.running = false →
    ∃ t, exec .sleepToStandby s = .next t ∧ t.power = 2) ∧
  (∀ s : State, s.stepIs 2 3 = true → ∃ t, exec .standbyToReady s = .next t ∧ t.power = 3) ∧
  (∀ s : State, s.stepIs 3 4 = true → s.linkState ≠ 5 → ∃ t, exec .readyToStream s = .next t ∧ t.power = 4) ∧
  (∀ s : State, s.stepIs 3 4 = true → s.linkState = 5 →
    ∃ t, exec .readyToStream s = .next t ∧ t.power = 3 ∧ t.pwr.step = none ∧ t.get PWR_STATUS_result = 2)

/-- O38. R542, R543, R545, R625, R632, R634, R636, R639, R640, R642: OFF, the wake paths, the block enables, and the timeout of a
drain for L2.
The model's own: notes/assumptions/44.md. -/
def Obligations.OffAndWakes : Prop :=
  (∀ s : State, s.pwr.step = some 0 → s.nvm.running = none →
    ∃ t, exec .enterOff s = .next t ∧ t.boot.phase = .off ∧ t.power = 0 ∧ t.portsDead = true ∧ t.nvm = s.nvm ∧
      t.sht = {} ∧ t.rings = [] ∧ t.arcadeMem = [] ∧ t.tensorMem = [] ∧
      ∀ a, a ∉ [aSYS_BOOT_REPORT, aSYS_BOOT_PREV, aPWR_WAKE, aPWR_WAKE_SRC, aPWR_STATUS] → t.reg a = regReset a) ∧
  (∀ (p : Nat) (up : Bool) (s : State), p < 4 → s.power = 1 → s.pwr.step = none → bit (s.get PWR_WAKE_trig_en) p = true →
    bit (s.get PWR_WAKE_trig_falling) p = !up →
    ∃ t, exec (.trigWake p up) s = .next t ∧ t.pwr.step = some 2 ∧ t.get PWR_WAKE_SRC_source = p + 1 ∧
      t.get PWR_WAKE_SRC_count = (s.get PWR_WAKE_SRC_count + 1) % 65536 ∧ t.on PWR_IRQ_STAT_wake = true) ∧
  (∀ (c : Instr) (src : Nat) (s : State), s.boot.phase = .off → s.supply.holds = false →
    (c = .scsbWake ∧ s.on PWR_WAKE_scsb_en = true ∧ src = 6) ∨ (c = .wakePattern ∧ s.on PWR_WAKE_bc_en = true ∧ src = 5) →
    ∃ t, exec c s = .next t ∧ t.boot.phase = .released ∧ t.get SYS_BOOT_REPORT_reset_src = 6 ∧
      t.get PWR_WAKE_SRC_source = src ∧ t.on PWR_IRQ_STAT_wake = true) ∧
  (∀ (v : Word) (s : State), ∃ t, exec (.blockEnableWrite v) s = .next t ∧ t.get PWR_BLOCK_EN_npc = bits v.toNat 0 1 ∧
    t.get PWR_BLOCK_EN_hk = bits v.toNat 1 1 ∧ t.get PWR_BLOCK_EN_pio = bits v.toNat 2 1 ∧ t.npc = s.npc) ∧
  (∀ (l : LowRequest) (s : State), s.link.low = some l → l.power = true → l.phase = 0 →
    ∃ t, exec .pmDrainTimeout s = .next t ∧ t.get PWR_STATUS_result = 2 ∧ t.pwr.step = none ∧ t.link.low = none ∧
      t.power = s.power)

/-- O39. R82, R149, R151, R158, R165, R180, R703: from the released state the sequence reads the identity and waits for a
reference that is missing; once SYNB has locked it completes, in READY with no failed attempts. A supervisor that has stopped
takes no step. A wait that runs out ends the attempt with its cause; a retry is due below three failures, and the third one
enters Minimal Mode.
The model's own: notes/assumptions/34.md and notes/assumptions/37.md. -/
def Obligations.BootSequence : Prop :=
  (∀ (e : BootEnv) (s : State), s.safe.supervisorDead = false → s.boot.phase = .released → s.identityFits = true →
    s.factoryFits = true → e.refKhz = 0 → s.on CLK_STATUS_ref_present = false →
    ∃ t, exec (.bootSequence e) s = .next t ∧ t.boot.phase = .waitReference ∧ t.reg aSYS_SERIAL_LO = s.nvmWord 0 ∧
      t.reg aSYS_SERIAL_HI = s.nvmWord 1 ∧ t.get NVM_STATUS_key_sealed = b2n s.sealOk) ∧
  (∀ (e : BootEnv) (s : State), s.safe.supervisorDead = false → s.boot.phase = .released → s.identityFits = false →
    s.get SYS_BOOT_REPORT_attempts < 2 →
    ∃ t, exec (.bootSequence e) s = .next t ∧ t.boot.phase = .failed ∧ t.get SYS_BOOT_REPORT_cause = 4) ∧
  (∀ (e : BootEnv) (i : Image) (s : State), s.safe.supervisorDead = false → s.boot.phase = .waitLockB →
    s.boot.image = some i → s.clk.b.locked = true →
    ∃ t, exec (.bootSequence e) s = .next t ∧ t.boot.phase = .done ∧ t.power = 3 ∧ t.on SYS_BOOT_REPORT_complete = true ∧
      t.get SYS_BOOT_REPORT_attempts = 0 ∧ t.get SYS_BOOT_REPORT_cause = 0 ∧ t.boot.image = none ∧
      t.on SYS_SRC_IRQ_STAT_boot_done = true) ∧
  (∀ (e : BootEnv) (s : State), s.safe.supervisorDead = true → exec (.bootSequence e) s = .next s) ∧
  (∀ (s : State), ∀ x ∈ [(BootPhase.waitFlash, Instr.flashBusyTimeout, 0x07), (.waitReference, .referenceWaitTimeout, 0x01),
      (.waitLockBoot, .lockTimeout .a, 0x02), (.waitLockA, .lockTimeout .a, 0x0A), (.waitLockB, .lockTimeout .b, 0x0B),
      (.released, .bootWatchdogExpiry, 0x0C), (.waitReference, .bootWatchdogExpiry, 0x0C),
      (.waitLockBoot, .bootWatchdogExpiry, 0x0C), (.waitFlash, .bootWatchdogExpiry, 0x0C), (.loading, .bootWatchdogExpiry, 0x0C),
      (.waitPush, .bootWatchdogExpiry, 0x0C), (.waitLockA, .bootWatchdogExpiry, 0x0C), (.waitLockB, .bootWatchdogExpiry, 0x0C)],
    s.boot.phase = x.1 → (x.2.1 = .flashBusyTimeout → s.boot.record = []) →
    (x.2.1 = .bootWatchdogExpiry → s.boot.watchdog = true) →
    (s.get SYS_BOOT_REPORT_attempts < 2 →
      ∃ t, exec x.2.1 s = .next t ∧ t.boot.phase = .failed ∧ t.get SYS_BOOT_REPORT_cause = x.2.2 ∧
        t.get SYS_BOOT_REPORT_attempts = s.get SYS_BOOT_REPORT_attempts + 1 ∧ t.cfg.load = none ∧ t.power = s.power) ∧
    (2 ≤ s.get SYS_BOOT_REPORT_attempts →
      ∃ t, exec x.2.1 s = .next t ∧ t.power = 3 ∧ t.on SYS_BOOT_REPORT_minimal = true ∧
        t.on SYS_BOOT_REPORT_complete = true ∧ t.on SYS_SRC_IRQ_STAT_minimal = true))

/-- O40. R172 to R179, R183: the unlock, the five commands of the NVM, and what a verified command leaves. Any command ends a
pending unlock.
The model's own: notes/assumptions/26.md and notes/assumptions/59.md. -/
def Obligations.NvmCommands : Prop :=
  (∀ (k : Word) (s : State), ∃ t, exec (.nvmUnlock k) s = .next t ∧ t.nvm = s.nvm ∧
    t.on NVM_STATUS_unlocked = (decide (k = 0x6A53#32) || s.on NVM_STATUS_unlocked)) ∧
  (∀ (a : Nat) (s : State), s.get NVM_ADDR_addr = 4 * a → s.safe.supervisorDead = false → s.nvm.running = none →
    (a ∉ s.nvm.bad → ∃ t, exec .nvmRead s = .next t ∧ t.get NVM_RDATA_data = (s.nvmWord a).toNat ∧
      t.get NVM_STATUS_cause = 0 ∧ t.on NVM_STATUS_unlocked = false ∧ t.on NVM_IRQ_STAT_done = true ∧ t.nvm = s.nvm) ∧
    (a ∈ s.nvm.bad → ∃ t, exec .nvmRead s = .next t ∧ t.get NVM_STATUS_cause = 0x45 ∧ t.on NVM_IRQ_STAT_error = true)) ∧
  (∀ (a : Nat) (s : State), s.get NVM_ADDR_addr = 4 * a → s.safe.supervisorDead = false →
    a / 1024 = 18 ∨ 21 ≤ a / 1024 → s.nvm.running = none → s.on NVM_STATUS_unlocked = true → s.nvmWarning = false →
    (s.nvmErased a = true → ∃ t, exec .nvmProgram s = .next t ∧ t.nvm.running = some (.program a (s.reg aNVM_WDATA)) ∧
      t.get NVM_STATUS_busy = 1 ∧ t.on NVM_STATUS_unlocked = false) ∧
    ((a / 1024 = 18 → s.sealed = false) → ∃ t, exec .nvmEraseSector s = .next t ∧
      t.nvm.running = some (.erase (a / 1024)) ∧ t.get NVM_STATUS_busy = 1)) ∧
  (∀ s : State, s.get NVM_ADDR_addr % 4 = 0 → s.safe.supervisorDead = false → s.nvm.running = none → 3 ≤ s.power →
    s.nvmWarning = false →
    ∃ t, exec .storeSeeds s = .next t ∧ t.get NVM_STATUS_busy = 1 ∧
      t.nvm.running = some (.store s.storeBank s.storeSeq (if s.slotsRun then none else some s.seedsNow) false)) ∧
  (∀ (op : Nat) (s : State), op = 0 ∨ (5 ≤ op ∧ op ≤ 7) →
    ∃ t, exec (.nvmCmdReservedOp op) s = .next t ∧ t.get NVM_STATUS_cause = 0x40 ∧ t.nvm = s.nvm) ∧
  (∀ (w : Nat) (v : Word) (s : State), s.nvm.running = some (.program w v) →
    ∃ t, exec (.nvmCommandDone true) s = .next t ∧ t.nvm.running = none ∧ t.get NVM_STATUS_busy = 0 ∧
      t.get NVM_STATUS_cause = 0 ∧ ∀ x, t.nvmWord x = if x = w then v else s.nvmWord x) ∧
  (∀ (k : Nat) (s : State), s.nvm.running = some (.erase k) →
    ∃ t, exec (.nvmCommandDone true) s = .next t ∧ t.nvm.running = none ∧ t.get NVM_STATUS_cause = 0 ∧
      ∀ x, t.nvmWord x = if x / 1024 = k then 0xFFFFFFFF#32 else s.nvmWord x) ∧
  (∀ (b q : Nat) (p : List Byte) (s : State), s.nvm.running = some (.store b q (some p) false) → b < 2 →
    ∃ t, exec (.nvmCommandDone true) s = .next t ∧ t.nvm.running = none ∧ t.get NVM_STATUS_cause = 0 ∧
      t.nvmWord (if b = 0 then 2048 else 10240) = BitVec.ofNat 32 q)

/-- O41. R82 to R84, R701: lock, loss of lock, the reference's loss and return, the relock attempts, and the reference monitor. -/
def Obligations.LockAndReference : Prop :=
  (∀ (y : Syn) (s : State), (s.synth y).running = true → (s.synth y).trying = true → (s.synth y).locked = false →
    s.on CLK_STATUS_ref_present = true → s.on (synCommit y) = false →
    ∃ t, exec (.synLock y) s = .next t ∧ t.synth y = { s.synth y with locked := true, lost := false, trying := false } ∧
      t.on (synLockBit y) = true ∧ t.on (synIrq y 2) = true ∧ (y = .a → t.on CLK_STATUS_sys_src = true)) ∧
  (∀ (y : Syn) (s : State), (s.synth y).locked = true →
    ∃ t, exec (.lossOfLock y) s = .next t ∧ t.synth y = { s.synth y with locked := false, lost := true, trying := false } ∧
      t.on (synLockBit y) = false ∧ t.get (synLosses y) = satAdd 8 (s.get (synLosses y)) 1 ∧ t.on (synIrq y 0) = true ∧
      (y = .a → t.on CLK_STATUS_sys_src = false ∧ t.get TIME_INC_inc = 0x0A000000 ∧ t.get TIME_STATUS_synced = 0 ∧
        t.sht.running = false ∧ t.sht.reading = false) ∧
      (y = .b → s.linkState = 5 → t.linkState = 0) ∧ (y = .b → 1 ≤ s.linkState → s.linkState ≠ 5 → t.linkState = 1)) ∧
  (∀ s : State, s.on CLK_STATUS_ref_present = true →
    ∃ t, exec .refLost s = .next t ∧ t.on CLK_STATUS_ref_present = false ∧ t.get CLK_REF_MEAS_ref_khz = 0 ∧
      t.on CLK_IRQ_STAT_ref_lost = true ∧ t.clk.a.locked = false ∧ t.clk.b.locked = false) ∧
  (∀ s : State, ∃ t, exec .refReturn s = .next t ∧ t.on CLK_STATUS_ref_present = true ∧
    ∀ y, (s.synth y).running = true → (s.synth y).locked = false → (s.synth y).lost = true → s.on (synAuto y) = true →
      (t.synth y).trying = true) ∧
  (∀ (y : Syn) (s : State), (s.synth y).running = true → (s.synth y).locked = false → (s.synth y).lost = true →
    s.on (synAuto y) = true → s.on CLK_STATUS_ref_present = true →
    exec (.autoRelockAttempt y) s = .next (s.setSynth y { s.synth y with trying := true })) ∧
  (∀ (khz : Nat) (s : State), s.boot.phase ≠ .minimal →
    ∃ t, exec (.refMeasUpdate khz) s = .next t ∧ s.keeps t [] [bCLK] ∧
      t.get CLK_REF_MEAS_ref_khz = if s.on CLK_STATUS_ref_present then khz % 65536 else 0)

/-- O42. R7, R88, R89, R91, R93, R453, R649: a commit is held until a beat, where it takes the shadows as one change or is rejected;
a relock starts with the settings in force, but in STREAM; upsets are counted, and a failed vote leaves copy 0 in force.
The model's own: notes/assumptions/23.md and notes/assumptions/56.md. -/
def Obligations.CommitsAndVotes : Prop :=
  (∀ (y : Syn) (s : State), s.on (synCommit y) = false →
    ∃ t, exec (.commit y) s = .next t ∧ s.keeps t [.clk] [bCLK] ∧ t.on (synCommit y) = true ∧
      t.synth y = { s.synth y with commitCycle := s.cycle, afterBoundary := false }) ∧
  (∀ (y : Syn) (s : State), s.on (synCommit y) = true → (s.synth y).locked = true → (s.synth y).commitCycle < s.cycle →
    s.commitHeld y = false →
    (limitResult y (s.synth y) (s.nextCfg y) = 0 →
      ∃ t, exec (.commitAtBeat y) s = .next t ∧ t.on (synCommit y) = false ∧ t.get (synResult y) = 0 ∧
        t.on (synIrq y 4) = true ∧ ∀ k, k < synOutputs y → (s.nextCfg y)[k]? = some (t.liveReg (synCfg y k))) ∧
    (limitResult y (s.synth y) (s.nextCfg y) ≠ 0 →
      ∃ t, exec (.commitAtBeat y) s = .next t ∧ t.on (synCommit y) = false ∧
        t.get (synResult y) = limitResult y (s.synth y) (s.nextCfg y) ∧ t.on CLK_IRQ_STAT_commit_rejected = true ∧
        t.live = s.live)) ∧
  (∀ (y : Syn) (s : State), s.power = 4 →
    ∃ t, exec (.relock y) s = .next t ∧ t.get (synResult y) = 3 ∧ t.on CLK_IRQ_STAT_commit_rejected = true ∧ t.clk = s.clk) ∧
  (∀ (y : Syn) (s : State), s.power ≠ 4 → (s.synth y).running = true →
    ∃ t, exec (.relock y) s = .next t ∧ t.get (synResult y) = 0 ∧ t.on (synLockBit y) = false ∧
      t.synth y = { s.synth y with locked := false, trying := true, lost := false }) ∧
  (∀ (a : Nat) (f : Bool) (c : Copies) (v : Word) (s : State), (synOf a).isSome = true → copiesVote c = some v →
    ∃ t, exec (.singleUpsetCorrected ⟨a, f, c⟩) s = .next t ∧ (if f then t.liveReg a = v else t.reg a = v) ∧
      t.get CLK_SEU_COUNT_corrected = satAdd 16 (s.get CLK_SEU_COUNT_corrected) 1 ∧ t.on CLK_IRQ_STAT_seu = true) ∧
  (∀ (k : Nat) (f : Bool) (c : Copies) (v : Word) (s : State), k < 8 → copiesVote c = some v →
    ∃ t, exec (.singleUpsetCorrected ⟨aEVF_FIRE_DELAY k, f, c⟩) s = .next t ∧ t.reg (aEVF_FIRE_DELAY k) = v ∧
      t.get EVF_SEU_corrected = satAdd 16 (s.get EVF_SEU_corrected) 1 ∧ t.on EVF_IRQ_STAT_seu = true) ∧
  (∀ (a : Nat) (c : Copies) (s : State), (synOf a).isSome = true → copiesVote c = none →
    (∃ t, exec (.voteFailure a true c) s = .next t ∧ t.liveReg a = c.c0 ∧ t.get SAFE_SEU_vote_fail = 1 ∧
      bit (t.get SAFE_FAULT_STAT_fault) 5 = true) ∧
    ∃ t, exec (.voteFailure a false c) s = .next t ∧ t.reg a = c.c0 ∧ t.liveReg a = s.liveReg a ∧
      t.get SAFE_SEU_vote_fail = 1 ∧ bit (t.get SAFE_FAULT_STAT_fault) 5 = true) ∧
  (∀ (k : Nat) (f : Bool) (c : Copies) (s : State), k < 8 → copiesVote c = none →
    ∃ t, exec (.voteFailure (aEVF_FIRE_DELAY k) f c) s = .next t ∧ t.reg (aEVF_FIRE_DELAY k) = c.c0 ∧
      t.get SAFE_SEU_vote_fail = 1 ∧ bit (t.get SAFE_FAULT_STAT_fault) 5 = true)

/-- O43. R119, R121, R141, R151, R163, R169, R709: staging, the start of a load or its refusal, its abort, and what the end of its
checks does to an image that is rejected, whose patch cannot be installed, or that has to wait.
The model's own: notes/assumptions/32.md, notes/assumptions/37.md and notes/assumptions/42.md. -/
def Obligations.Loads : Prop :=
  (∀ (v : Word) (s : State), 4 * s.get CFG_STAGE_ADDR_addr < 0x400000 → s.cfg.load = none → s.overlayPending = false →
    ∃ t, exec (.stageData v) s = .next t ∧ t.get CFG_STAGE_ADDR_addr = s.get CFG_STAGE_ADDR_addr + 1 ∧
      ∀ b, cellGet t.arcadeMem b =
        let a := 0x3C00000 + 4 * s.get CFG_STAGE_ADDR_addr
        if a ≤ b ∧ b < a + 4 then BitVec.ofNat 8 (v.toNat / 2 ^ (8 * (b - a))) else cellGet s.arcadeMem b) ∧
  (∀ (v : Word) (s : State), 0x400000 ≤ 4 * s.get CFG_STAGE_ADDR_addr ∨ s.cfg.load ≠ none ∨ s.overlayPending = true →
    ∃ t, exec (.stageData v) s = .next t ∧ t.arcadeMem = s.arcadeMem ∧ t.get CFG_STATUS_refusal = 0x3D ∧
      t.on CFG_IRQ_STAT_refused = true) ∧
  (∀ (s : State), ∀ p ∈ [BootPhase.done, .minimal, .waitPush], s.boot.phase = p → s.cfg.load = none → s.cfg.waiting = none →
    s.boot.image = none →
    ∃ t, exec .startFull s = .next t ∧ t.get CFG_LOAD_STATUS_busy = 1 ∧ t.cfg.load = some {
      overlay := false, target := s.get CFG_OVL_FRAME_target, boot := decide (p = .waitPush) } ∧
      (p = .waitPush → t.boot.watchdog = true)) ∧
  (∀ (s : State), s.boot.phase = .done → s.get CFG_STATUS_structure ≠ 0 → s.cfg.load = none → s.cfg.waiting = none →
    s.boot.image = none →
    ∃ t, exec .startOverlay s = .next t ∧ t.get CFG_LOAD_STATUS_busy = 1 ∧
      t.cfg.load = some { overlay := true, target := s.get CFG_OVL_FRAME_target, boot := false }) ∧
  (∀ (s : State), ∀ c ∈ [Instr.startFull, .startOverlay],
    s.cfg.load ≠ none ∨ s.cfg.waiting ≠ none ∨ s.boot.image ≠ none →
    ∃ t, exec c s = .next t ∧ t.cfg = s.cfg ∧ t.get CFG_STATUS_refusal = 0x3B ∧ t.on CFG_IRQ_STAT_refused = true) ∧
  (∀ (l : Load) (s : State), s.cfg.load = some l → l.boot = false →
    ∃ t, exec .abort s = .next t ∧ t.cfg.load = none ∧ t.get CFG_LOAD_STATUS_busy = 0 ∧
      t.get CFG_LOAD_STATUS_cause = 0x3C ∧ t.on CFG_IRQ_STAT_rejected = true ∧ t.cfg.sections = s.cfg.sections) ∧
  (∀ (l : Load) (c sec r : Nat) (ok : Bool) (s : State), s.cfg.load = some l → l.boot = false → s.check l = .reject c sec r →
    ∃ t, exec (.loadChecksComplete [] ok) s = .next t ∧ t.cfg.load = none ∧ t.get CFG_LOAD_STATUS_busy = 0 ∧
      t.get CFG_LOAD_STATUS_cause = c % 256 ∧ t.on CFG_IRQ_STAT_rejected = true ∧ t.cfg.sections = s.cfg.sections) ∧
  (∀ (l : Load) (i : Image) (s : State), s.cfg.load = some l → l.boot = false → s.check l = .accept i →
    (l.overlay = true → l.target ≠ 0 → s.targetPassed l.target = false) → (0xF0, 0) ∈ i.carried →
    (∃ x ∈ i.sections, x.type = 0xF0) →
    ∃ t, exec (.loadChecksComplete [] false) s = .next t ∧ t.cfg.load = none ∧ t.get CFG_LOAD_STATUS_busy = 0 ∧
      t.get CFG_LOAD_STATUS_cause = 0x0D ∧ t.on CFG_IRQ_STAT_rejected = true ∧ t.cfg.sections = s.cfg.sections) ∧
  (∀ (l : Load) (i : Image) (s : State), s.cfg.load = some l → l.boot = false →
    (l.overlay = true → l.target ≠ 0 → s.targetPassed l.target = false) → s.check l = .accept i → s.imageWaits i = true →
    ∃ t, exec (.loadChecksComplete [] true) s = .next t ∧ t.cfg.load = none ∧ t.cfg.waiting = some i ∧
      t.get CFG_LOAD_STATUS_busy = 0 ∧ t.get CFG_LOAD_STATUS_cause = 0 ∧ t.on CFG_IRQ_STAT_accepted = true ∧
      t.on CFG_STATUS_overlay_pending = i.overlay ∧ t.cfg.sections = s.cfg.sections)

/-- O44. R122, R124, R127: with no readout in progress an accepted image that carries no REGINIT section comes into force at once:
its sections are the structure, and the CFG registers name it.
The model's own: notes/assumptions/51.md and notes/assumptions/53.md. -/
def Obligations.ImagesInForce : Prop :=
  ∀ (l : Load) (i : Image) (s : State), s.cfg.load = some l → l.boot = false → s.check l = .accept i →
    (l.overlay = true → l.target ≠ 0 → s.targetPassed l.target = false) → s.imageWaits i = false →
    (∀ k, (0x0C, k) ∉ i.carried) →
    ∃ t, exec (.loadChecksComplete [] true) s = .next t ∧ t.cfg.sections = i.sections ∧ t.cfg.load = none ∧ t.cfg.waiting = none ∧
      t.get CFG_STATUS_structure = (if i.overlay then 2 else 1) ∧ t.get CFG_ACTIVE_ID_id = i.id % 2 ^ 32 ∧
      (i.overlay = false → t.reg aCFG_BASE_ID = BitVec.ofNat 32 i.id)

/-- O45. R491, R525 to R528, R534, R539, R549, R553: an ACK releases every unit up to its LSN, a NAK every unit before it and
schedules a replay, unless one from there or earlier waits; one outside the buffer is an error; one whose CRC does not fit, or
with a code error, is ignored and counted; the timeout schedules a replay from the oldest unit.
The model's own: notes/assumptions/57.md. -/
def Obligations.LinkAcks : Prop :=
  (∀ (lsn crc : Nat) (s : State), s.on LNK_STATUS_bc_aligned = true → crc = interjectionCrc lsn → s.link.reneg = none →
    s.link.low = none →
    let d := (lsn % 65536 + 1 + 65536 - s.oldestLsn) % 65536
    let span := (s.get LNK_LSN_next + 65536 - s.oldestLsn) % 65536
    (d ≤ span → ∃ t, exec (.ack lsn crc) s = .next t ∧ t.link.held = s.link.held.drop d ∧
      t.get LNK_REPLAY_FILL_bytes = t.link.fill % 2 ^ 18) ∧
    (span < d → ∃ t, exec (.ack lsn crc) s = .next t ∧ t.link = s.link ∧ t.get LNK_STATUS_cause = 0x56)) ∧
  (∀ (lsn crc : Nat) (s : State), s.on LNK_STATUS_bc_aligned = true → crc = interjectionCrc lsn →
    let d := (lsn % 65536 + 1 + 65536 - s.oldestLsn) % 65536
    let span := (s.get LNK_LSN_next + 65536 - s.oldestLsn) % 65536
    (s.link.reneg = none → s.link.low = none → s.link.sched = none → 3 ≤ s.linkState → 1 ≤ d → d ≤ span →
      s.link.held.drop (d - 1) ≠ [] →
      ∃ t, exec (.nak lsn crc) s = .next t ∧ t.link.held = s.link.held.drop (d - 1) ∧ t.link.sched = some (lsn % 65536)) ∧
    (s.schedCovers (lsn % 65536) = true → ∃ t, exec (.nak lsn crc) s = .next t ∧ t.link = s.link) ∧
    (span < d ∨ d = 0 → ∃ t, exec (.nak lsn crc) s = .next t ∧ t.link = s.link ∧ t.get LNK_STATUS_cause = 0x56)) ∧
  (∀ (lsn crc : Nat) (code : Bool) (s : State), s.on LNK_STATUS_bc_aligned = false →
    ∀ c ∈ [Instr.ack lsn crc, .nak lsn crc, .interjectionDiscarded lsn crc code], exec c s = .next s) ∧
  (∀ (lsn crc : Nat) (code : Bool) (c : Instr) (s : State), s.on LNK_STATUS_bc_aligned = true →
    (crc ≠ interjectionCrc lsn ∧ (c = .ack lsn crc ∨ c = .nak lsn crc ∨ c = .interjectionDiscarded lsn crc code)) ∨
      c = .interjectionDiscarded lsn crc true →
    ∃ t, exec c s = .next t ∧ s.keeps t [] [bLNK] ∧
      t.get LNK_COUNTS_bc_discarded = satAdd 16 (s.get LNK_COUNTS_bc_discarded) 1) ∧
  (∀ s : State, s.linkState = 3 → s.link.held ≠ [] → s.link.sched = none →
    exec .replayTimeout s = .next { s with link := { s.link with sched := some s.oldestLsn } })

/-- O46. R531, R533, R535, R537, R539, R540, R543, R544, R548, R551, R564: the messages of the back-channel.
The model's own: notes/assumptions/6.md, notes/assumptions/57.md, notes/assumptions/72.md and notes/assumptions/81.md. -/
def Obligations.BackChannelMessages : Prop :=
  (∀ (x : BcSymbol) (xs : List BcSymbol) (s t : State), exec (.bcAlignment [x]) s = .next t →
    exec (.bcAlignment (x :: xs)) s = exec (.bcAlignment xs) t) ∧
  (∀ (xs : List BcSymbol) (s : State), s.clk.b.locked = false → exec (.bcAlignment xs) s = .next s) ∧
  (∀ (x : BcSymbol) (seen : List BcSymbol) (s : State), s.clk.b.locked = true → seen = (x :: s.link.symbols).take 64 →
    ∃ t, exec (.bcAlignment [x]) s = .next t ∧ s.keeps t [.link] [bLNK] ∧
      (s.on LNK_STATUS_bc_aligned = false → (seen.take 32).length = 32 → (∀ y ∈ seen.take 32, y.error = false) →
        4 ≤ ((seen.take 32).filter BcSymbol.comma).length →
        t.on LNK_STATUS_bc_aligned = true ∧ t.link.symbols = []) ∧
      (s.on LNK_STATUS_bc_aligned = false →
        (seen.take 32).length < 32 ∨ (∃ y ∈ seen.take 32, y.error = true) ∨ ((seen.take 32).filter BcSymbol.comma).length < 4 →
        t.on LNK_STATUS_bc_aligned = false ∧ t.link.symbols = seen) ∧
      (s.on LNK_STATUS_bc_aligned = true →
        (4 ≤ (seen.filter BcSymbol.error).length → t.on LNK_STATUS_bc_aligned = false ∧ t.link.symbols = []) ∧
        ((seen.filter BcSymbol.error).length < 4 → t.on LNK_STATUS_bc_aligned = true ∧ t.link.symbols = seen))) ∧
  (∀ s : State, s.linkState = 3 → ∃ t, exec .bcSilenceTimeout s = .next t ∧ t.linkState = 1 ∧
    t.get LNK_STATUS_cause = 0x59 ∧ t.on LNK_IRQ_STAT_down = true ∧ t.link.held = s.link.held) ∧
  (∀ (m : List Byte) (s : State), s.on LNK_STATUS_bc_aligned = true →
    ∃ t, exec (.bcMessageDiscarded m true) s = .next t ∧ t.get LNK_STATUS_cause = 0x50 ∧
      t.on LNK_IRQ_STAT_bc_error = true ∧
      t.get LNK_COUNTS_bc_discarded = satAdd 16 (s.get LNK_COUNTS_bc_discarded) 1) ∧
  (∀ (body : List Byte) (s : State), s.on LNK_STATUS_bc_aligned = true → s.linkState = 1 → s.safe.supervisorDead = false →
    body.length = 8 → bits (leAt body 2 1) 4 4 = 0 → leAt body 3 5 = 0 → bit (leAt body 0 1) 1 = true →
    2 ≤ s.get LNK_CTRL_max_version → land (leAt body 1 1) (s.get LNK_CTRL_lane_en) ≠ 0 → s.on LNK_CTRL_pin_rate = false →
    ∃ t, exec (.caps body) s = .next t ∧ t.linkState = 2 ∧ t.get LNK_STATUS_version = 2 ∧
      t.get LNK_LANE_STATUS_chosen = land (leAt body 1 1) (s.get LNK_CTRL_lane_en) ∧
      t.link.target = min (bits (leAt body 2 1) 0 2) (s.get LNK_CTRL_max_rate)) ∧
  (∀ (body : List Byte) (s : State), s.on LNK_STATUS_bc_aligned = true → s.linkState = 1 → s.safe.supervisorDead = false →
    body.length = 8 → bits (leAt body 2 1) 4 4 = 0 → leAt body 3 5 = 0 → s.on LNK_CTRL_pin_rate = true →
    bits (leAt body 2 1) 0 2 < s.get LNK_CTRL_max_rate →
    ∃ t, exec (.caps body) s = .next t ∧ t.linkState = 1 ∧ t.get LNK_STATUS_cause = 0x53) ∧
  (∀ (body : List Byte) (s : State), s.on LNK_STATUS_bc_aligned = true → s.linkState ≠ 1 →
    body.length = 8 → bits (leAt body 2 1) 4 4 = 0 → leAt body 3 5 = 0 →
    ∃ t, exec (.caps body) s = .next t ∧ t.link = s.link ∧ t.get LNK_STATUS_cause = 0x52) ∧
  (∀ (body : List Byte) (k : RateStep) (s : State), s.on LNK_STATUS_bc_aligned = true → s.link.step = some k →
    k.phase = .checking → body.length = 4 → leAt body 0 1 < 2 → leAt body 1 1 = k.rate → leAt body 2 2 = 0 →
    ∃ t, exec (.stepResult body) s = .next t ∧ t.link.step = some { k with
      phase := if leAt body 0 1 = 1 then .passed else .failed } ∧ t.regs = s.regs) ∧
  (∀ (body : List Byte) (s : State), s.on LNK_STATUS_bc_aligned = true → body.length = 4 → leAt body 1 3 = 0 →
    (leAt body 0 1 = 0 → s.linkState = 5 → ∃ t, exec (.pm body) s = .next t ∧ t.linkState = 3 ∧ t.get LNK_STATUS_low = 0 ∧
      t.link.quiet = 2 ∧ s.manages t (wordBytes [6, 0])) ∧
    (leAt body 0 1 = 1 ∨ leAt body 0 1 = 2 → s.get LNK_STATUS_version = 2 → s.power ≠ 4 → s.linkState = 3 →
      s.link.step = none → s.link.low = none → s.link.reneg = none → s.link.held ≠ [] →
      ∃ t, exec (.pm body) s = .next t ∧ t.link.low = some { low := leAt body 0 1 } ∧ t.linkState = 3) ∧
    (leAt body 0 1 = 1 ∨ leAt body 0 1 = 2 → s.get LNK_STATUS_version = 2 → s.power ≠ 4 → s.linkState = 5 →
      s.link.reneg = none → ∃ t, exec (.pm body) s = .next t ∧ t.linkState = 3 ∧ t.link.low ≠ none) ∧
    (leAt body 0 1 = 1 ∨ leAt body 0 1 = 2 → s.get LNK_STATUS_version ≠ 2 ∨ s.power = 4 →
      ∃ t, exec (.pm body) s = .next t ∧ t.get LNK_STATUS_cause = 0x57 ∧ t.linkState = s.linkState ∧ t.link = s.link)) ∧
  (∀ (body : List Byte) (s : State), s.on LNK_STATUS_bc_aligned = true → body.length = 4 → leAt body 1 3 = 0 →
    s.linkState = 3 ∨ s.linkState = 4 →
    (∀ n m, n < 8 → bit s.laneMap n = true → bit (leAt body 0 1) n = false → m < 8 → bit s.laneMap m = true →
      bit (leAt body 0 1) m = true → (∀ x ∈ s.link.losses, x.1 ≠ m) →
      ∃ t, exec (.laneReport body) s = .next t ∧ (t.link.losses.any fun x => x.1 == n) = true ∧ t.laneMap = s.laneMap ∧
        t.linkState = s.linkState) ∧
    (s.laneMap ≠ 0 → s.link.losses = [] → (∀ n, n < 8 → bit s.laneMap n = true → bit (leAt body 0 1) n = false) →
      ∃ t, exec (.laneReport body) s = .next t ∧ t.linkState = 1 ∧ t.get LNK_STATUS_cause = 0x5E)) ∧
  (∀ (body : List Byte) (e : Nat) (s : State), s.on LNK_STATUS_bc_aligned = true → body.length = 4 →
    let x := (s.time.base + 2 ^ 72 - e * rxUnit % 2 ^ 72) / 256 % 2 ^ 64
    ∃ t, exec (.echo body e) s = .next t ∧ t.get64 aTIME_RX_LO aTIME_RX_HI = x ∧
      s.manages t (wordBytes [4, leAt body 0 4, x % 2 ^ 32, x / 2 ^ 32, 0, 0]))

/-- O47. R536, R539, R540, R546, R551, R555, R562 to R564: the link's enable, RENEGOTIATE, the ends of a rate step's waits, a lane's
own loss, its probes, and RESTORE.
The model's own: notes/assumptions/57.md. -/
def Obligations.LinkControl : Prop :=
  (∀ s : State, s.linkState = 0 → s.clk.b.locked = true →
    ∃ t, exec (.linkEnableWrite true) s = .next t ∧ t.linkState = 1 ∧ t.laneMap = s.get LNK_CTRL_lane_en ∧
      t.on LNK_CTRL_en = true) ∧
  (∀ s : State, ∃ t, exec (.linkEnableWrite false) s = .next t ∧ t.on LNK_CTRL_en = false ∧ t.linkState = 0) ∧
  (∀ s : State, s.linkState = 3 → s.link.reneg = none →
    ∃ t, exec .renegotiate s = .next t ∧ t.link = { s.link with reneg := some (s.get (RING_SEQ_next 0)) } ∧
      s.manages t (wordBytes [9, s.get LNK_CTRL_lane_en + 2 ^ 8 * s.get LNK_CTRL_max_rate])) ∧
  (∀ (k : RateStep) (s : State), s.link.step = some k →
    (k.phase = .draining → s.link.held = [] →
      exec .stepDrained s = .next { s with link := { s.link with step := some { k with phase := .drained } } }) ∧
    (k.phase = .draining →
      exec .stepDrainTimeout s = .next { s with link := { s.link with step := some { k with phase := .failed } } }) ∧
    (k.phase = .checking →
      exec .stepResultTimeout s = .next { s with link := { s.link with step := some { k with phase := .failed } } })) ∧
  (∀ s : State, s.linkState = 5 → s.get LNK_STATUS_low = 1 → s.on LNK_CTRL_wake_on_data = true →
    (s.ring 0).spool ≠ [] ∨ (s.ring 1).spool ≠ [] →
    ∃ t, exec .wakeOnData s = .next t ∧ t.linkState = 3 ∧ t.get LNK_STATUS_low = 0 ∧ t.link.quiet = 2) ∧
  (∀ s : State, s.linkState = 5 → s.get LNK_STATUS_low = 1 → s.boot.phase ≠ .off → s.sleepish = false →
    ∃ t, exec .wakePattern s = .next t ∧ t.linkState = 3 ∧ t.get LNK_STATUS_low = 0 ∧ t.link.quiet = 2) ∧
  (∀ (n : Nat) (s : State), n < 8 → s.linkState = 3 → bit s.laneMap n = true → (∀ x ∈ s.link.losses, x.1 ≠ n) →
    ((∃ m, m < 8 ∧ m ≠ n ∧ bit s.laneMap m = true ∧ ∀ x ∈ s.link.losses, x.1 ≠ m) →
      ∃ t, exec (.txDelayLineLoss n) s = .next t ∧ t.link.losses = s.link.losses ++ [(n, s.cycle, 0x5B)] ∧
        t.get LNK_STATUS_cause = 0x5B ∧ t.on LNK_IRQ_STAT_lane_lost = true ∧
        t.get LNK_LANE_COUNTS_losses = satAdd 16 (s.get LNK_LANE_COUNTS_losses) 1) ∧
    ((∀ m, m < 8 → m ≠ n → bit s.laneMap m = true → ∃ x ∈ s.link.losses, x.1 = m) →
      ∃ t, exec (.txDelayLineLoss n) s = .next t ∧ t.linkState = 1 ∧ t.get LNK_STATUS_cause = 0x5E ∧
        t.on LNK_IRQ_STAT_down = true ∧ t.link.held = s.link.held)) ∧
  (∀ (n : Nat) (s : State), n < 8 → s.linkState = 3 → bit (s.get LNK_LANE_STATUS_lost) n = true →
    bit (s.get LNK_LANE_CTRL_no_readmit) n = false → (∀ p ∈ s.link.probes, p.lane ≠ n) →
    exec (.probeStart n) s = .next { s with link := { s.link with probes := s.link.probes ++ [{ lane := n }] } }) ∧
  (∀ (n : Nat) (s : State), { lane := n, left := 0, begun := true } ∈ s.link.probes →
    ∃ t, exec (.probeEnd n) s = .next t ∧ t.link.probes = (s.link.probes.filter fun p => p.lane != n) ∧
      t.get LNK_STATUS_cause = 0x5D) ∧
  (∀ (n : Nat) (s : State), 2 ≤ n → n < 256 → s.on (RING_CLASS_demoted n) = true → (s.ring n).restore = false →
    (∀ m, m < 256 → m ≠ n → s.on (RING_CLASS_demoted m) = false ∧ s.on (RING_CLASS_in_force m) = false ∧
      (s.ring m).restore = false) →
    s.on (RING_CLASS_in_force n) = false → s.get (RING_CLASS_shares n) + 1 ≤ s.linkCapacity →
    ∃ t, exec .restore s = .next t ∧
      (s.hasFrames n = true → (t.ring n).restore = true ∧ t.on (RING_CLASS_demoted n) = true) ∧
      (s.hasFrames n = false → t.on (RING_CLASS_in_force n) = true ∧ t.on (RING_CLASS_demoted n) = false))

/-- O48. R515, R519 to R523, R525, R527, R528, R536, R538, R548, R553, R566: what the striper takes next, and what a marker begins
in DETECT, CONFIG and ACTIVE.
The model's own: notes/assumptions/21.md, notes/assumptions/57.md and notes/assumptions/80.md. -/
def Obligations.LinkStreams : Prop :=
  (∀ s : State, 0 ≤ s.bucket 0 → s.offers 0 = true → s.roundabout = some 0) ∧
  (∀ (n : Nat) (s : State), s.roundabout = some n → s.offers n = true) ∧
  (∀ (ahead : Nat) (s : State), s.ports.resetAsked = none → s.linkState = 3 → s.clk.b.locked = true → s.link.stream ≠ [] →
    s.link.pos < s.intervalBytes → s.link.quiet = 0 → s.link.sched = none → s.link.losses = [] →
    (∀ (l : Nat) (p : Packet) (rest : List (Nat × Packet)), s.link.resend = some l → s.link.held = (l, p) :: rest →
      ∃ t, exec (.unitHandedToStriper ahead) s = .next t ∧ t.link.stream = s.link.stream ++ [.packet l p] ∧
        t.link.held = s.link.held ∧ t.link.resend = rest.head?.map (·.1)) ∧
    (∀ (n : LaneNotice) (ns : List LaneNotice), s.link.resend = none → s.link.notices = n :: ns → s.link.fill + 36 ≤ 131072 →
      ∃ t p, exec (.unitHandedToStriper ahead) s = .next t ∧
        t.link.stream = s.link.stream ++ [.packet (s.get LNK_LSN_next) p] ∧ t.link.notices = ns ∧ p.ring = 0 ∧ p.type = 9 ∧
        p.payload = wordBytes
          [7, n.lost + 2 ^ 8 * n.joined + 2 ^ 16 * n.map + 2 ^ 24 * n.cause, n.capacity, n.marker]) ∧
    (s.link.resend = none → s.link.notices = [] → s.link.step = none → s.link.low = none →
      (s.roundabout = none → exec (.unitHandedToStriper ahead) s =
        .next { s with link := { s.link with stream := s.link.stream ++ [.idle] } }) ∧
      ∀ (n : Nat) (p : Packet) (rest : List Packet), n < 256 → s.roundabout = some n → (s.ring n).spool = p :: rest →
        ∃ t, exec (.unitHandedToStriper ahead) s = .next t ∧
          t.link.stream = s.link.stream ++ [.packet (s.get LNK_LSN_next) (s.stampEcho p ahead)] ∧
          t.link.held = s.link.held ++ [(s.get LNK_LSN_next, s.stampEcho p ahead)] ∧
          t.get LNK_LSN_next = (s.get LNK_LSN_next + 1) % 65536 ∧
          (2 ≤ n → (s.ring n).removing = false → (t.ring n).spool = rest))) ∧
  (∀ (ahead : Nat) (s : State), s.ports.resetAsked = none → s.linkState = 3 → s.clk.b.locked = true → s.link.stream ≠ [] →
    s.link.pos < s.intervalBytes → s.link.losses ≠ [] ∨ s.link.sched.isSome = true ∨ s.link.quiet ≠ 0 →
    exec (.unitHandedToStriper ahead) s =
      .next { s with link := { s.link with stream := s.link.stream ++ [.idle] } }) ∧
  (∀ s : State, s.ports.resetAsked = none → s.clk.b.locked = true → s.link.low = none →
    (s.linkState = 1 →
      ∃ t, exec .marker s = .next t ∧ t.linkState = 1 ∧ t.link.stream = [.sync 0] ∧
        t.get LNK_MARKER_counter = s.link.nextMarker % 65536 ∧ t.laneMap = s.get LNK_CTRL_lane_en) ∧
    (s.linkState = 2 → s.laneMap ≠ 0 → s.link.losses = [] → s.link.quiet = 0 →
      ∃ t, exec .marker s = .next t ∧ t.linkState = 3 ∧ t.laneMap = s.get LNK_LANE_STATUS_chosen ∧
        t.link.stream = [.sync 0] ∧ t.link.restripe = true ∧ t.on LNK_IRQ_STAT_up = true) ∧
    (s.linkState = 3 → s.laneMap ≠ 0 → s.link.losses = [] → s.link.probes = [] → s.link.step = none →
      (s.link.sched = none →
        ∃ t, exec .marker s = .next t ∧ t.linkState = 3 ∧ t.laneMap = s.laneMap ∧
          t.link.stream = [.sync (s.link.resend.getD (s.get LNK_LSN_next))] ∧
          t.get LNK_MARKER_counter = s.link.nextMarker % 65536 ∧ t.link.nextMarker = (s.link.nextMarker + 1) % 65536) ∧
      ∀ x, s.link.sched = some x → s.link.quiet = 0 → s.link.lastReplay ≠ some x →
        ∃ t, exec .marker s = .next t ∧ t.linkState = 3 ∧ t.link.stream = [.rsync x] ∧ t.link.resend = some x ∧
          t.link.sched = none ∧ t.get LNK_COUNTS_replays = satAdd 16 (s.get LNK_COUNTS_replays) 1))

/-- O49. R5, R9, R15, R188, R191 to R195, R216, R217, R220, R225: one word written by a port: the access codes of a plain register,
the causes of a refused write in their order, the block locks, and the retrigger of IRQB.
The model's own: notes/assumptions/14.md, notes/assumptions/15.md, notes/assumptions/36.md. -/
def Obligations.RegisterWrites : Prop :=
  (∀ (a : Nat) (r : RegRow) (old v fresh i : Nat), regRow a = some r → old < 2 ^ 32 → i < 32 →
    bit (r.written old v fresh) i =
      if bit r.rw i then bit v i else bit old i && !(bit r.w1c i && bit v i && !bit fresh i)) ∧
  (∀ (p : Port) (a : Nat) (v : Word) (r : RegRow) (s : State),
    a ∈ [aSYS_IRQ_EN, aSYS_SRC_IRQ_STAT, aPWR_WAKE, aCFG_OVL_FRAME, aNVM_ADDR, aNVM_WDATA, aNVM_IRQ_STAT, aCTL_PORT_CFG,
      aSHT_TRIG_CFG, aTIME_PATH_DELAY] → regRow a = some r →
    s.portsDead = false → s.serializerFree p → (∀ b, portBlock a = some b → s.lockedTo p b = false) →
    s.on SYS_BOOT_REPORT_complete = true → s.minimal = false →
    ∃ t, exec (.registerWrite p a v) s = .next t ∧
      (t.reg a).toNat = r.written (s.reg a).toNat v.toNat (Sparse.get 0 s.freshBits a) ∧ ∀ x, x ≠ a → t.reg x = s.reg x) ∧
  (∀ (p : Port) (a c blk w : Nat) (v : Word) (s : State), s.portsDead = false → s.serializerFree p → a % 4 = 0 → a < 2 ^ 24 →
    (portBlock a = none ∧ blk = 31 ∧ w = 0 ∧ c = 0xA3) ∨
      (portBlock a = some blk ∧ w = wordInBlock a ∧ s.lockedTo p blk = true ∧ blk ≠ 5 ∧ c = 0xA2) ∨
      (portBlock a = some blk ∧ w = wordInBlock a ∧ s.lockedTo p blk = false ∧ s.on SYS_BOOT_REPORT_complete = false ∧
        blk ∉ [0, 3, 4, 5] ∧ c = 0xA4) ∨
      (portBlock a = some blk ∧ w = wordInBlock a ∧ s.lockedTo p blk = false ∧ s.on SYS_BOOT_REPORT_complete = true ∧
        s.minimal = true ∧ blk ∈ [11, 14, 18] ∧ c = 0xA5) →
    ∃ t, exec (.registerWrite p a v) s = .next t ∧
      t.reg aCTL_LAST_REJECT = BitVec.ofNat 32 (c + 2 ^ 8 * p.num + 2 ^ 10 * blk + 2 ^ 16 * w) ∧
      (if c = 0xA2 then t.on CTL_IRQ_STAT_lock_reject = true else t.on CTL_IRQ_STAT_other_reject = true) ∧
      ∀ x, x ∉ [aCTL_LAST_REJECT, aCTL_IRQ_STAT] → t.reg x = s.reg x) ∧
  (∀ (p : Port) (v : Word) (s : State), s.portsDead = false → s.serializerFree p →
    ((∀ b, b < 21 → bit v.toNat b = true → s.lockedTo p b = false) →
      (∃ t, exec (.ctlLockTake p v) s = .next t ∧ ∀ b, b < 21 → t.owner b = if bit v.toNat b then p.num else s.owner b) ∧
      ∃ t, exec (.ctlLockFree p v) s = .next t ∧ ∀ b, b < 21 → t.owner b = if bit v.toNat b then 0 else s.owner b) ∧
    ((∃ b, b < 21 ∧ bit v.toNat b = true ∧ s.lockedTo p b = true) → ∀ c ∈ [Instr.ctlLockTake p v, .ctlLockFree p v],
      ∃ t, exec c s = .next t ∧ bits (t.reg aCTL_LAST_REJECT).toNat 0 8 = 0xA9 ∧ t.on CTL_IRQ_STAT_lock_reject = true ∧
        ∀ b, b < 21 → t.owner b = s.owner b) ∧
    ∃ t, exec (.ctlLockBreak p v) s = .next t ∧
      (v = 0xB4EA#32 → t.on CTL_IRQ_STAT_lock_broken = true ∧ ∀ b, b < 21 → t.owner b = 0) ∧
      (v ≠ 0xB4EA#32 → ∀ b, b < 21 → t.owner b = s.owner b)) ∧
  (∀ s : State, s.portsDead = false → s.on CTL_PORT_CFG_irq_retrigger = true →
    land s.irqSummary (s.reg aSYS_IRQ_EN).toNat ≠ 0 →
    ∃ t, exec .irqbRetrigger s = .next t ∧ t.irqbLow = false ∧ t.regs = s.regs)

/-- O50. R188, R192, R196 to R207, R209 to R213: frames of SPI and I2C and commands of the inbound queues: a completed command counts
and sets the cause, but for a valid NOP; a read answers with its data and their CRC; a frame in error ends with its cause.
The model's own: notes/assumptions/13.md, notes/assumptions/14.md, notes/assumptions/16.md. -/
def Obligations.PortCommands : Prop :=
  (∀ (h : Nat) (s : State), s.listens .spi = true → s.serializerFree .spi → h < 2 ^ 32 → hdrOp h = 0 →
    ∃ t, exec (.cmdNop (.spi (frameOf h []))) s = .next t ∧ t.regs = s.regs ∧ t.ports.spi = { s.ports.spi with
      response := beBytes 4 (s.statusWord .spi) ++ [0#8, 0#8], reading := false }) ∧
  (∀ (h w : Nat) (s : State), s.listens .spi = true → h < 2 ^ 32 → hdrCount h = 1 → hdrAddr h = aNVM_WDATA → w < 2 ^ 32 →
    s.serializerFree .spi → s.lockedTo .spi 4 = false →
    ∀ c ∈ [(1, Instr.cmdWriteIncrementing (.spi (frameOf h [w]))), (2, .cmdWriteFixed (.spi (frameOf h [w])))],
      hdrOp h = c.1 → ∃ t, exec c.2 s = .next t ∧ t.reg aNVM_WDATA = BitVec.ofNat 32 w ∧
        (∀ x, x ≠ aNVM_WDATA → t.reg x = s.reg x) ∧
        t.ports.spi.count = (s.ports.spi.count + 1) % 256 ∧ t.ports.spi.cause = 0) ∧
  (∀ (h : Nat) (s : State), s.listens .spi = true → s.serializerFree .spi → h < 2 ^ 32 → hdrCount h = 1 →
    hdrAddr h = aNVM_WDATA →
    ∀ c ∈ [(3, Instr.cmdReadIncrementing (.spi (frameOf h []))), (4, .cmdReadFixed (.spi (frameOf h [])))],
      hdrOp h = c.1 → ∃ t, exec c.2 s = .next t ∧ t.regs = s.regs ∧
        t.ports.spi.count = (s.ports.spi.count + 1) % 256 ∧ t.ports.spi.cause = 0 ∧
        let d := beBytes 4 (s.reg aNVM_WDATA).toNat
        t.ports.spi.response = beBytes 4 (s.statusWord .spi) ++ [0#8, 0#8, 0x5A#8] ++ d ++ beBytes 2 (crc16 d)) ∧
  (∀ (h : Nat) (ws : List Nat) (s : State), s.listens .spi = true → s.serializerFree .spi → h < 2 ^ 32 → 5 ≤ hdrOp h →
    ∃ t, exec (.reservedOpFrame (.spi (frameOf h ws))) s = .next t ∧ t.ports.spi.cause = 0xA0 ∧
      t.ports.spi.count = (s.ports.spi.count + 1) % 256 ∧ t.on CTL_IRQ_STAT_frame_error = true ∧
      ∀ x, x ∉ [aCTL_LAST_REJECT, aCTL_IRQ_STAT] → t.reg x = s.reg x) ∧
  (∀ (h : Nat) (s : State), s.listens .i2c = true → s.serializerFree .i2c → h < 2 ^ 32 → hdrOp h = 3 ∨ hdrOp h = 4 → hdrCount h = 1 →
    hdrAddr h = aNVM_WDATA →
    ∃ t, exec (.readNotServed (.i2c s.i2cAddress (frameOf h []))) s = .next t ∧ t.ports.i2c.cause = 0xAA ∧
      t.ports.i2c.response = [0xE1#8, 0xAA#8] ∧ t.ports.i2c.count = (s.ports.i2c.count + 1) % 256) ∧
  (∀ (p : Port) (bs : List Byte) (b : Bool) (s : State), p ≠ .backChannel → s.listens p = true → bs.length < 4 →
    ∃ t, exec (.frameTruncated p bs b) s = .next t ∧ (t.portSt p).cause = 0xA0 ∧
      (t.portSt p).count = ((s.portSt p).count + 1) % 256 ∧ t.on CTL_IRQ_STAT_frame_error = true) ∧
  (∀ s : State, s.listens .i2c = true →
    ∃ t, exec .i2cStatus s = .next t ∧ t.regs = s.regs ∧
      let w := beBytes 4 (s.statusWord .i2c)
      t.ports.i2c = { s.ports.i2c with response := w ++ beBytes 2 (crc16 w) }) ∧
  (∀ (tag q h : Nat) (ws : List Nat) (s : State), s.portsDead = false → s.on LNK_STATUS_bc_aligned = true → tag < 65536 →
    q < 16 → h < 2 ^ 32 → 4 * ws.length = hdrData h → (∀ w ∈ ws, w < 2 ^ 32) → s.queueOpen q = true →
    let c := Instr.cmd (wordBytes ([2 ^ 12 * q + 2 ^ 16 * tag, h] ++ ws))
    ((s.queued q).length < (s.queueDesc q).2.1 →
      ∃ t, exec c s = .next t ∧ t.queued q = s.queued q ++ [{ tag := tag, header := h, data := ws }]) ∧
    ((s.queueDesc q).2.1 ≤ (s.queued q).length →
      ∃ t, exec c s = .next t ∧ t.queued q = s.queued q ∧ t.on RING_IRQ_STAT_inq_full = true ∧
        ∃ p, (t.ring 0).spool = (s.ring 0).spool ++ [p] ∧ p.type = 0 ∧
          p.payload = wordBytes [2 ^ 16 * tag + 2 ^ 12 * q + 0xA6, h])) ∧
  (∀ (q : Nat) (c : QueuedCmd) (cs : List QueuedCmd) (s : State), s.listens .backChannel = true →
    s.serializerFree .backChannel → s.presented = some q → q < 16 →
    s.queued q = c :: cs → hdrOp c.header = 0 → c.header < 2 ^ 32 → c.tag < 65536 → s.on (RING_INQ_STAT_tag_valid q) = false →
    Sparse.find s.ports.underOld q = none →
    ∃ t, exec (.cmdNop (.queue q)) s = .next t ∧ t.queued q = cs ∧ t.get (RING_INQ_STAT_last_tag q) = c.tag ∧
      t.on (RING_INQ_STAT_tag_valid q) = true ∧ ∃ p, (t.ring 0).spool = (s.ring 0).spool ++ [p] ∧ p.type = 0 ∧
        p.payload = wordBytes [2 ^ 16 * c.tag + 2 ^ 12 * q, c.header])

/-- O51. R11, R187, R431, R536, R625: the device right after reset: every register reads its reset value, the values in force are
those, the memories list nothing, nothing waits, and the tables are in canonical form.
The model's own: notes/assumptions/3.md, notes/assumptions/25.md, notes/assumptions/65.md. -/
def Obligations.ResetValues : Prop :=
  State.reset.wf = true ∧ State.reset.shaped = true ∧ State.reset.pending = [] ∧
    (∀ a, State.reset.reg a = regReset a ∧ State.reset.liveReg a = regReset a) ∧
    State.reset.arcadeMem = [] ∧ State.reset.tensorMem = [] ∧ State.reset.boot.phase = .released ∧
    State.reset.reg aSYS_ID = 0x50244D01#32 ∧ State.reset.reg aSYS_STEP = 0xB1#32 ∧ State.reset.power = 2 ∧
    State.reset.reg aTIME_INC = 0x0A000000#32 ∧ State.reset.linkState = 0 ∧ State.reset.reg aCTL_PORT_CFG = 3#32 ∧
    State.reset.reg aSHT_CTRL = 0#32 ∧ State.reset.reg aNPC_STATUS = 1#32 ∧ State.reset.reg aSAFE_FAULT_EN = 0x3B00FF#32 ∧
    State.reset.get CFG_STATUS_structure = 0

/-- O52. Every step keeps the canonical form of the register file, of the values in force and of the memories, and the numbers of
trigger units and banks, from whatever state has them.
The model's own: notes/assumptions/1.md and notes/assumptions/2.md. -/
def Obligations.StepKeepsCanonical : Prop :=
  ∀ s t : State, s.wf = true → s.shaped = true → step s = .next t → t.wf = true ∧ t.shaped = true

/-- O53. R643: nothing but a private test instruction is outside the model: every command answers a next state, no command raises a
fault, and on an empty queue the device takes a cycle of SYS.
The model's own: notes/assumptions/1.md and notes/assumptions/69.md. -/
def Obligations.NeverStops : Prop :=
  (∀ (c : Instr) (s : State), (∀ (op : Nat) (x : Straps) (b : List Bool), c = .bypass op x b → s.supply.testen = true → op / 16 ≠ 2) →
    ∃ t, exec c s = .next t) ∧
  (∀ (c : Instr) (f : Fault) (s : State), exec c s ≠ .fault f) ∧
  (∀ s : State, s.pending = [] → ∃ t, step s = .next t ∧ t.cycle = s.cycle + 1 ∧ t.pending = [])

/-- O54. Frames of the commands of supplies, boot, NVM, clocks, loads, ports, power and health: the parts of the state and the
register blocks that each leaves alone; none changes the queue.
The model's own: notes/assumptions/1.md. -/
def Obligations.FramesOfControl : Prop :=
  ∀ (c : Instr) (f : Footprint) (s t : State), c.wellFormed = true → c.controlFootprint = some f → exec c s = .next t →
    s.within t f

/-- O55. Frames of the commands of the array, the readout, near-pixel compute and the Arcade.
The model's own: notes/assumptions/1.md and notes/assumptions/2.md. -/
def Obligations.FramesOfImager : Prop :=
  ∀ (c : Instr) (f : Footprint) (s t : State), c.wellFormed = true → c.imagerFootprint = some f → exec c s = .next t →
    s.within t f

/-- O56. Frames of the commands of Crossroads, the time base, the link, housekeeping and the pin engines.
The model's own: notes/assumptions/1.md. -/
def Obligations.FramesOfEdge : Prop :=
  ∀ (c : Instr) (f : Footprint) (s t : State), c.wellFormed = true → c.edgeFootprint = some f → exec c s = .next t →
    s.within t f

/-- O57. R15: a W1C bit that hardware sets in a SYS cycle is set after that cycle, whether a write of 1 to clear it comes before or
after in the cycle. -/
def Obligations.W1cRace : Prop :=
  ∀ (s : State) (f : Fld) (r : RegRow) (v : Word), f.w = 1 → f.lo < 32 → regRow f.addr = some r → bit r.w1c f.lo = true →
    ((s.hwSet f).plainWrite f.addr v).on f = true ∧ ((s.plainWrite f.addr v).hwSet f).on f = true

/-- O58. R175: the key unlocks, every NVM command ends the unlock, and a program or an erase without it is rejected with cause
0x4B, where no earlier check of R186 fails. -/
def Obligations.NvmUnlockOnce : Prop :=
  (∀ s : State, ∃ t, exec (.nvmUnlock 0x6A53#32) s = .next t ∧ t.on NVM_STATUS_unlocked = true) ∧
  (∀ s : State, ∀ c ∈ [Instr.nvmRead, .nvmProgram, .nvmEraseSector, .storeSeeds, .nvmCmdReservedOp 0, .nvmCmdReservedOp 5,
    .nvmCmdReservedOp 6, .nvmCmdReservedOp 7], ∃ t, exec c s = .next t ∧ t.on NVM_STATUS_unlocked = false) ∧
  (∀ (a : Nat) (s : State), s.get NVM_ADDR_addr = 4 * a → s.safe.supervisorDead = false → s.nvm.running = none →
    s.on NVM_STATUS_unlocked = false → a / 1024 = 18 ∨ 21 ≤ a / 1024 →
    (∃ t, exec .nvmProgram s = .next t ∧ t.get NVM_STATUS_cause = 0x4B ∧ t.nvm = s.nvm) ∧
    ((a / 1024 = 18 → s.sealed = false) →
      ∃ t, exec .nvmEraseSector s = .next t ∧ t.get NVM_STATUS_cause = 0x4B ∧ t.nvm = s.nvm))

/-- O59. R217: the key frees every lock from any port, and the event log records the port and the freed lock map; every other value
is ignored. The device's log has room.
The model's own: notes/assumptions/15.md. -/
def Obligations.LockBreak : Prop :=
  (∀ (p : Port) (s : State), s.portsDead = false → s.serializerFree p → s.safe.log.length < 511 →
    ∃ t, exec (.ctlLockBreak p 0xB4EA#32) s = .next t ∧ (∀ b, b < 21 → t.owner b = 0) ∧
      t.reg (aSAFE_LOG_LAST 0) = 0x50400#32 ∧ (t.reg (aSAFE_LOG_LAST 1)).toNat = p.num ∧
      ∀ b, b < 21 → bit (t.reg (aSAFE_LOG_LAST 2)).toNat b = decide (s.owner b ≠ 0)) ∧
  (∀ (p : Port) (v : Word) (s : State), s.portsDead = false → s.serializerFree p → v ≠ 0xB4EA#32 →
    ∃ t, exec (.ctlLockBreak p v) s = .next t ∧ t.regs = s.regs)

/-- O60. R393, R395, R396, R400, R401, R476, R477, R527, R531, R533 to R535, R537, R539, R540, R544, R548, R551, R651: where these commands
complete, and with what: LOOP, BR, END, POST, WAITEV and SIGEV of a running run, the slots of the scrubbers, the interjections of
the back-channel, its alignment by 32 symbols, and its messages.
The model's own: notes/assumptions/6.md and notes/assumptions/57.md. -/
def Obligations.CommandsComplete : Prop :=
  (∀ (p w last : Nat) (count : Int) (r : Run) (s : State), s.executes p 0x08 w r → last = r.pc + bits w 32 12 + 1 →
    count = toSigned 32 ((r.xr (bits w 50 4) + bits w 0 32) % 2 ^ 32) → r.loops.length < 3 →
    (∀ l ∈ r.loops, l.first ≤ r.pc → r.pc ≤ l.last → last ≤ l.last) → last + 1 < r.plan.words →
    ∃ t q, exec (.loop p) s = .next t ∧ t.runIn? p .running = some q ∧
      (if 0 < count then q.pc = r.pc + 1 ∧ q.loops.length = r.loops.length + 1 else q.pc = last + 1 ∧ q.loops = r.loops)) ∧
  (∀ (p w : Nat) (target : Int) (r : Run) (s : State), s.executes p 0x09 w r → bits w 43 3 = 0 →
    target = (r.pc : Int) + toSigned 16 (bits w 0 16) → 0 ≤ target → target < r.plan.words →
    ∃ t q, exec (.br p) s = .next t ∧ t.runIn? p .running = some q ∧ (q.pc : Int) = target) ∧
  (∀ (p w : Nat) (r : Run) (s : State), p < 16 → s.executes p 0x0A w r → s.npc.loads = [] →
    ∃ t, exec (.npcEnd p) s = .next t ∧ t.on NPC_IRQ_STAT_run_done = true ∧
      t.npc.runs = s.npc.runs.filter fun q => !(q.prog == r.prog && q.frame == r.frame)) ∧
  (∀ (p w : Nat) (r : Run) (ts : List Nat) (gs : List Group) (s : State), s.executes p 0x11 w r → postIllegal w = false →
    r.tiles (r.xr (bits w 28 4)) = some ts → ts.mapM r.group? = some gs → r.postExtents w (32 * ts.length) = none →
    s.safe.badWords = [] → r.satTrap = false → (r.advanced none none).pc < r.plan.words →
    ∃ t q, exec (.post p) s = .next t ∧ t.runIn? p .running = some q ∧ q.pc = (r.advanced none none).pc) ∧
  (∀ (p w : Nat) (r : Run) (s : State), (r.advanced none none).pc < r.plan.words →
    (s.executes p 0x18 w r → bit (s.get NPC_FLAGS_flags) (bits w 0 3) = true → r.released = false →
      ∃ t q, exec (.waitev p) s = .next t ∧ t.runIn? p .running = some q ∧ q.pc = (r.advanced none none).pc ∧
        bit (t.get NPC_FLAGS_flags) (bits w 0 3) = false) ∧
    (s.executes p 0x19 w r → s.evf.pulses.contains (66 + bits w 0 3) = false →
      ∃ t q, exec (.sigev p) s = .next t ∧ t.runIn? p .running = some q ∧ q.pc = (r.advanced none none).pc ∧
        (66 + bits w 0 3) ∈ t.evf.pulses)) ∧
  (∀ (f : Scrub) (s : State), s.portsDead = false →
    (s.cfg.load = none → ∃ t, exec (.arcScrub f.word f.errorBits) s = .next t ∧
      t.arc.scrub = s.arc.scrub.took (2 ^ 26) f.errorBits) ∧
    (1 ≤ f.memory → f.memory ≤ 10 → ∀ c ∈ [Instr.sramScrub f, .scrubDeferralExpiry f],
      ∃ t, exec c s = .next t ∧ t.sweep f.memory = (s.sweep f.memory).took (sramSize f.memory) f.errorBits)) ∧
  (∀ (lsn crc : Nat) (s : State), s.on LNK_STATUS_bc_aligned = true → s.link.reneg = none → s.link.low = none →
    let d := (lsn % 65536 + 1 + 65536 - s.oldestLsn) % 65536
    d ≤ (s.get LNK_LSN_next + 65536 - s.oldestLsn) % 65536 →
    (crc = interjectionCrc lsn → ∃ t, exec (.ack lsn crc) s = .next t ∧ t.link.held = s.link.held.drop d) ∧
    (crc = interjectionCrc lsn → 1 ≤ d → s.link.sched = none → 3 ≤ s.linkState → s.link.held.drop (d - 1) ≠ [] →
      ∃ t, exec (.nak lsn crc) s = .next t ∧ t.link.sched = some (lsn % 65536)) ∧
    ∃ t, exec (.interjectionDiscarded lsn crc true) s = .next t ∧
      t.get LNK_COUNTS_bc_discarded = satAdd 16 (s.get LNK_COUNTS_bc_discarded) 1) ∧
  (∀ s : State, s.linkState = 3 →
    (s.link.held ≠ [] → s.link.sched = none →
      ∃ t, exec .replayTimeout s = .next t ∧ t.link.sched = some s.oldestLsn) ∧
    ∃ t, exec .bcSilenceTimeout s = .next t ∧ t.linkState = 1 ∧ t.get LNK_STATUS_cause = 0x59) ∧
  (∀ (xs : List BcSymbol) (s : State), s.clk.b.locked = true → s.on LNK_STATUS_bc_aligned = false → s.link.symbols = [] →
    xs.length = 32 → (∀ y ∈ xs, y.error = false) → 4 ≤ (xs.filter BcSymbol.comma).length →
    ∃ t, exec (.bcAlignment xs) s = .next t ∧ t.on LNK_STATUS_bc_aligned = true) ∧
  (∀ (body : List Byte) (e : Nat) (k : RateStep) (s : State), s.on LNK_STATUS_bc_aligned = true →
    (∃ t, exec (.bcMessageDiscarded body true) s = .next t ∧ t.get LNK_STATUS_cause = 0x50) ∧
    (body.length = 8 → bits (leAt body 2 1) 4 4 = 0 → leAt body 3 5 = 0 → s.linkState = 1 → s.safe.supervisorDead = false →
      bit (leAt body 0 1) 1 = true → 2 ≤ s.get LNK_CTRL_max_version →
      land (leAt body 1 1) (s.get LNK_CTRL_lane_en) ≠ 0 → s.on LNK_CTRL_pin_rate = false →
      ∃ t, exec (.caps body) s = .next t ∧ t.linkState = 2) ∧
    (body.length = 4 → s.link.step = some k → k.phase = .checking → leAt body 0 1 = 1 → leAt body 1 1 = k.rate →
      leAt body 2 2 = 0 →
      ∃ t, exec (.stepResult body) s = .next t ∧ t.link.step = some { k with phase := .passed }) ∧
    (body.length = 4 → leAt body 0 4 = 0 → s.linkState = 5 → ∃ t, exec (.pm body) s = .next t ∧ t.linkState = 3) ∧
    (body.length = 4 → leAt body 1 3 = 0 → s.linkState = 3 →
      (∀ n, n < 8 → bit s.laneMap n = true → bit (leAt body 0 1) n = true) →
      ∃ t, exec (.laneReport body) s = .next t ∧ t.link.losses = s.link.losses) ∧
    (body.length = 4 → ∃ t p, exec (.echo body e) s = .next t ∧ (t.ring 0).spool = (s.ring 0).spool ++ [p] ∧ p.type = 9 ∧
      leAt p.payload 0 4 = 4 ∧ leAt p.payload 4 4 = leAt body 0 4))
end

