-- ==== Sys2Proof/Laws/Sparse.lean ====
section
/-! SUPPORT. The laws of sparse tables and of the memories made of them: what is read after a write, and that every
operation keeps the canonical form. -/

namespace Sys2Proof.Machine

/-! ### Read after write -/

@[simp] theorem Sparse.find_nil {α : Type} (k : Nat) : Sparse.find ([] : List (Nat × α)) k = none := rfl

theorem Sparse.find_insert {α : Type} (t : List (Nat × α)) (k : Nat) (v : α) (j : Nat) :
    Sparse.find (Sparse.insert t k v) j = if j = k then some v else Sparse.find t j := by
  induction t with
  | nil => by_cases h : k = j <;> simp [Sparse.insert, Sparse.find, h, eq_comm]
  | cons e r ih =>
    obtain ⟨i, w⟩ := e
    by_cases h1 : i = k
    · by_cases h2 : k = j <;> simp_all [Sparse.insert, Sparse.find, eq_comm]
    · by_cases h3 : k < i
      · by_cases h2 : k = j <;> simp_all [Sparse.insert, Sparse.find, eq_comm]
      · simp only [Sparse.insert, h1, h3, if_false, Sparse.find, ih]
        by_cases h2 : j = k
        · subst h2; simp [h1]
        · simp [h2]

theorem Sparse.find_filter {α : Type} (t : List (Nat × α)) (p : Nat → Bool) (j : Nat) :
    Sparse.find (t.filter fun e => p e.1) j = if p j then Sparse.find t j else none := by
  induction t with
  | nil => simp
  | cons e r ih =>
    obtain ⟨i, w⟩ := e
    by_cases h : i = j
    · subst h; by_cases hp : p i <;> simp_all [Sparse.find]
    · by_cases hp : p i <;> simp_all [Sparse.find]

theorem Sparse.find_erase {α : Type} (t : List (Nat × α)) (k j : Nat) :
    Sparse.find (Sparse.erase t k) j = if j = k then none else Sparse.find t j := by
  rw [Sparse.erase, Sparse.find_filter t (fun i => i != k)]
  by_cases h : j = k <;> simp [h]

theorem Sparse.find_append {α : Type} (t u : List (Nat × α)) (j : Nat) :
    Sparse.find (t ++ u) j = (Sparse.find t j).or (Sparse.find u j) := by
  induction t with
  | nil => simp
  | cons e r ih => by_cases h : e.1 = j <;> simp [Sparse.find, h, ih]

theorem Sparse.get_put_same {α : Type} [DecidableEq α] (d : α) (t : List (Nat × α)) (k : Nat) (v : α) :
    Sparse.get d (Sparse.put d t k v) k = v := by
  by_cases h : v = d <;> simp [Sparse.get, Sparse.put, h, Sparse.find_insert, Sparse.find_erase]

theorem Sparse.get_put_ne {α : Type} [DecidableEq α] (d e : α) (t : List (Nat × α)) (k j : Nat) (v : α) (h : j ≠ k) :
    Sparse.get d (Sparse.put e t k v) j = Sparse.get d t j := by
  by_cases hv : v = e <;> simp [Sparse.get, Sparse.put, hv, h, Sparse.find_insert, Sparse.find_erase]

/-! ### The canonical form -/

theorem Sparse.wfFrom_mono {α : Type} [DecidableEq α] {d : Nat → α} {t : List (Nat × α)} {a b : Nat} (hab : a ≤ b)
    (h : Sparse.wfFrom d b t = true) : Sparse.wfFrom d a t = true := by
  cases t with
  | nil => rfl
  | cons e r =>
    simp only [Sparse.wfFrom, Bool.and_eq_true, decide_eq_true_eq] at h ⊢
    exact ⟨⟨Nat.le_trans hab h.1.1, h.1.2⟩, h.2⟩

/-- Removing entries keeps the form. -/
theorem Sparse.wfFrom_filter {α : Type} [DecidableEq α] {d : Nat → α} (p : Nat × α → Bool) {t : List (Nat × α)}
    {a : Nat} (h : Sparse.wfFrom d a t = true) : Sparse.wfFrom d a (t.filter p) = true := by
  induction t generalizing a with
  | nil => rfl
  | cons e r ih =>
    simp only [Sparse.wfFrom, Bool.and_eq_true, decide_eq_true_eq] at h
    by_cases hp : p e
    · simp [hp, Sparse.wfFrom, ih h.2, h.1.1, h.1.2]
    · simp only [hp, Bool.false_eq_true, not_false_eq_true, List.filter_cons_of_neg]
      exact Sparse.wfFrom_mono (Nat.le_succ_of_le h.1.1) (ih h.2)

theorem Sparse.wfFrom_insert {α : Type} [DecidableEq α] {d : Nat → α} {t : List (Nat × α)} {a k : Nat} {v : α}
    (hk : a ≤ k) (hv : v ≠ d k) (h : Sparse.wfFrom d a t = true) : Sparse.wfFrom d a (Sparse.insert t k v) = true := by
  induction t generalizing a with
  | nil => simp [Sparse.insert, Sparse.wfFrom, hk, hv]
  | cons e r ih =>
    obtain ⟨i, w⟩ := e
    simp only [Sparse.wfFrom, Bool.and_eq_true, decide_eq_true_eq] at h
    by_cases h1 : i = k
    · subst h1; simp [Sparse.insert, Sparse.wfFrom, h.2, hv, hk]
    · by_cases h3 : k < i
      · simp only [Sparse.insert, h1, h3, if_true, if_false, Sparse.wfFrom, Bool.and_eq_true, decide_eq_true_eq]
        exact ⟨⟨hk, by simp [hv]⟩, ⟨h3, h.1.2⟩, h.2⟩
      · simp only [Sparse.insert, h1, h3, if_false, Sparse.wfFrom, Bool.and_eq_true, decide_eq_true_eq]
        exact ⟨h.1, ih (by omega) h.2⟩

/-- The one operation that writes a table keeps its form. -/
theorem Sparse.wf_put {α : Type} [DecidableEq α] {d : Nat → α} {t : List (Nat × α)} (k : Nat) (v : α)
    (h : Sparse.wf d t = true) : Sparse.wf d (Sparse.put (d k) t k v) = true := by
  by_cases hv : v = d k
  · simp only [Sparse.put, hv, if_true]; exact Sparse.wfFrom_filter _ h
  · simp only [Sparse.put, hv, if_false]; exact Sparse.wfFrom_insert (Nat.zero_le _) hv h

/-! ### Byte memories -/

theorem cellGet_cellPut (m : List Host.Cell) (a : Nat) (v : Byte) (b : Nat) :
    cellGet (cellPut m a v) b = if b = a then v else cellGet m b := by
  by_cases h : b = a
  · subst h; simp [cellGet, cellPut, Sparse.get_put_same]
  · simp [cellGet, cellPut, Sparse.get_put_ne _ _ _ _ _ _ h, h]

theorem find_cellsOf (a : Nat) (bs : List Byte) (b : Nat) :
    (Sparse.find (cellsOf a bs) b).getD Config.memFill =
      if a ≤ b ∧ b < a + bs.length then bs.getD (b - a) Config.memFill else Config.memFill := by
  induction bs generalizing a with
  | nil => simp [cellsOf]
  | cons x r ih =>
    have hr := ih (a + 1)
    by_cases hab : b = a
    · subst hab
      by_cases hx : x = Config.memFill
      · simp only [cellsOf, hx, if_true, hr]; rw [if_neg (by omega)]; simp
      · simp [cellsOf, hx, Sparse.find]
    · have : Sparse.find (cellsOf a (x :: r)) b = Sparse.find (cellsOf (a + 1) r) b := by
        by_cases hx : x = Config.memFill
        · simp [cellsOf, hx]
        · simp [cellsOf, hx, Sparse.find, Ne.symm hab]
      rw [this, hr]
      by_cases h1 : a + 1 ≤ b
      · have e : b - a = b - (a + 1) + 1 := by omega
        by_cases h2 : b < a + 1 + r.length
        · rw [if_pos ⟨h1, h2⟩, if_pos ⟨by omega, by simp; omega⟩, e]; rfl
        · rw [if_neg (by omega), if_neg (by simp; omega)]
      · rw [if_neg (by omega), if_neg (by simp; omega)]

theorem find_cellsOf_none (a : Nat) (bs : List Byte) (b : Nat) (h : ¬(a ≤ b ∧ b < a + bs.length)) :
    Sparse.find (cellsOf a bs) b = none := by
  induction bs generalizing a with
  | nil => rfl
  | cons x r ih =>
    have h2 : ¬(a + 1 ≤ b ∧ b < a + 1 + r.length) := by simp at h ⊢; omega
    have hab : a ≠ b := by rintro rfl; simp at h
    by_cases hx : x = Config.memFill
    · simp [cellsOf, hx, ih _ h2]
    · simp [cellsOf, hx, Sparse.find, hab, ih _ h2]

/-- A byte after consecutive bytes were written: the byte written there, or the byte that was there. -/
theorem cellGet_cellsWrite (m : List Host.Cell) (a : Nat) (bs : List Byte) (b : Nat) :
    cellGet (cellsWrite m a bs) b =
      if a ≤ b ∧ b < a + bs.length then bs.getD (b - a) Config.memFill else cellGet m b := by
  have hlo := Sparse.find_filter m (fun i => decide (i < a)) b
  have hhi := Sparse.find_filter m (fun i => decide (a + bs.length ≤ i)) b
  have key : Sparse.find (cellsWrite m a bs) b =
      ((if b < a then Sparse.find m b else none).or (Sparse.find (cellsOf a bs) b)).or
        (if a + bs.length ≤ b then Sparse.find m b else none) := by
    simp only [cellsWrite, Sparse.find_append]
    rw [hlo, hhi]; simp
  by_cases h : a ≤ b ∧ b < a + bs.length
  · rw [if_pos h, cellGet, Sparse.get, key, if_neg (by omega), if_neg (by omega)]
    simpa [h] using find_cellsOf a bs b
  · rw [if_neg h, cellGet, cellGet, Sparse.get, Sparse.get, key, find_cellsOf_none a bs b h]
    by_cases h1 : b < a
    · simp [h1, show ¬(a + bs.length ≤ b) by omega]
    · simp [h1, show a + bs.length ≤ b by omega]

theorem cellGet_cellsClear (m : List Host.Cell) (a n b : Nat) :
    cellGet (cellsClear m a n) b = if a ≤ b ∧ b < a + n then Config.memFill else cellGet m b := by
  have := Sparse.find_filter m (fun i => decide (i < a) || decide (a + n ≤ i)) b
  simp only [cellsClear, cellGet, Sparse.get, this]
  by_cases h : a ≤ b ∧ b < a + n
  · rw [if_pos h, if_neg (by simp; omega)]; rfl
  · rw [if_neg h, if_pos (by simp; omega)]

theorem cells_wf_put {m : List Host.Cell} (a : Nat) (v : Byte)
    (h : Sparse.wf (fun _ => Config.memFill) m = true) : Sparse.wf (fun _ => Config.memFill) (cellPut m a v) = true :=
  Sparse.wf_put (d := fun _ => Config.memFill) a v h

theorem wfFrom_cellsOf (a : Nat) (bs : List Byte) : Sparse.wfFrom (fun _ => Config.memFill) a (cellsOf a bs) = true := by
  induction bs generalizing a with
  | nil => rfl
  | cons x r ih =>
    by_cases hx : x = Config.memFill
    · simp only [cellsOf, hx, if_true]; exact Sparse.wfFrom_mono (Nat.le_succ a) (ih _)
    · simp [cellsOf, hx, Sparse.wfFrom, ih]

theorem Sparse.wfFrom_append {α : Type} [DecidableEq α] {d : Nat → α} {t u : List (Nat × α)} {a b : Nat} (hab : a ≤ b)
    (ht : Sparse.wfFrom d a t = true) (hb : ∀ e ∈ t, e.1 < b) (hu : Sparse.wfFrom d b u = true) :
    Sparse.wfFrom d a (t ++ u) = true := by
  induction t generalizing a with
  | nil => exact Sparse.wfFrom_mono hab hu
  | cons e r ih =>
    simp only [Sparse.wfFrom, Bool.and_eq_true, decide_eq_true_eq, List.cons_append] at ht ⊢
    exact ⟨ht.1, ih (hb e (by simp)) ht.2 fun x hx => hb x (by simp [hx])⟩

theorem Sparse.wfFrom_above {α : Type} [DecidableEq α] {d : Nat → α} {t : List (Nat × α)} {a b : Nat}
    (ht : Sparse.wfFrom d a t = true) (hb : ∀ e ∈ t, b ≤ e.1) : Sparse.wfFrom d b t = true := by
  cases t with
  | nil => rfl
  | cons e r =>
    simp only [Sparse.wfFrom, Bool.and_eq_true, decide_eq_true_eq] at ht ⊢
    exact ⟨⟨hb e (by simp), ht.1.2⟩, ht.2⟩

theorem cellsOf_lt (a : Nat) (bs : List Byte) : ∀ e ∈ cellsOf a bs, e.1 < a + bs.length := by
  induction bs generalizing a with
  | nil => simp [cellsOf]
  | cons x r ih =>
    intro e he
    have hr := ih (a + 1) e
    by_cases hx : x = Config.memFill
    · simp only [cellsOf, hx, if_true] at he; have := hr he; simp; omega
    · simp only [cellsOf, hx, if_false, List.mem_cons] at he
      rcases he with rfl | he
      · simp
      · have := hr he; simp; omega

/-- Writing consecutive bytes keeps the form. -/
theorem cells_wf_write {m : List Host.Cell} (a : Nat) (bs : List Byte)
    (h : Sparse.wf (fun _ => Config.memFill) m = true) :
    Sparse.wf (fun _ => Config.memFill) (cellsWrite m a bs) = true := by
  have lo := Sparse.wfFrom_filter (fun c : Nat × Byte => decide (c.1 < a)) h
  have hi := Sparse.wfFrom_above (b := a + bs.length)
    (Sparse.wfFrom_filter (fun c : Nat × Byte => decide (a + bs.length ≤ c.1)) h)
    (by intro e he; simpa using (List.mem_filter.1 he).2)
  have mid := Sparse.wfFrom_append (b := a + bs.length) (Nat.le_add_right a bs.length) (wfFrom_cellsOf a bs)
    (cellsOf_lt a bs) hi
  have all := Sparse.wfFrom_append (Nat.zero_le a) lo
    (by intro e he; simpa using (List.mem_filter.1 he).2) mid
  simpa [Sparse.wf, cellsWrite, List.append_assoc] using all

theorem cells_wf_clear {m : List Host.Cell} (a n : Nat) (h : Sparse.wf (fun _ => Config.memFill) m = true) :
    Sparse.wf (fun _ => Config.memFill) (cellsClear m a n) = true := Sparse.wfFrom_filter _ h

end Sys2Proof.Machine
end

