-- ==== Sys2Proof/Laws/State.lean ====
section
/-! SUPPORT. What the plain updates of the state change and leave: one lemma per update and field, so that no proof
unfolds a record update. -/

namespace Sys2Proof.Machine

variable (s : State)

/-! ### State.withCycle -/

@[simp] theorem State.withCycle_cycle (x : Nat) : (s.withCycle x).cycle = x := (rfl)
@[simp] theorem State.withCycle_fresh (x : Nat) : (s.withCycle x).fresh = s.fresh := (rfl)
@[simp] theorem State.withCycle_regs (x : Nat) : (s.withCycle x).regs = s.regs := (rfl)
@[simp] theorem State.withCycle_live (x : Nat) : (s.withCycle x).live = s.live := (rfl)
@[simp] theorem State.withCycle_heldOld (x : Nat) : (s.withCycle x).heldOld = s.heldOld := (rfl)
@[simp] theorem State.withCycle_freshBits (x : Nat) : (s.withCycle x).freshBits = s.freshBits := (rfl)
@[simp] theorem State.withCycle_supply (x : Nat) : (s.withCycle x).supply = s.supply := (rfl)
@[simp] theorem State.withCycle_clk (x : Nat) : (s.withCycle x).clk = s.clk := (rfl)
@[simp] theorem State.withCycle_cfg (x : Nat) : (s.withCycle x).cfg = s.cfg := (rfl)
@[simp] theorem State.withCycle_boot (x : Nat) : (s.withCycle x).boot = s.boot := (rfl)
@[simp] theorem State.withCycle_nvm (x : Nat) : (s.withCycle x).nvm = s.nvm := (rfl)
@[simp] theorem State.withCycle_ports (x : Nat) : (s.withCycle x).ports = s.ports := (rfl)
@[simp] theorem State.withCycle_pwr (x : Nat) : (s.withCycle x).pwr = s.pwr := (rfl)
@[simp] theorem State.withCycle_evf (x : Nat) : (s.withCycle x).evf = s.evf := (rfl)
@[simp] theorem State.withCycle_time (x : Nat) : (s.withCycle x).time = s.time := (rfl)
@[simp] theorem State.withCycle_cnt (x : Nat) : (s.withCycle x).cnt = s.cnt := (rfl)
@[simp] theorem State.withCycle_safe (x : Nat) : (s.withCycle x).safe = s.safe := (rfl)
@[simp] theorem State.withCycle_rings (x : Nat) : (s.withCycle x).rings = s.rings := (rfl)
@[simp] theorem State.withCycle_link (x : Nat) : (s.withCycle x).link = s.link := (rfl)
@[simp] theorem State.withCycle_sht (x : Nat) : (s.withCycle x).sht = s.sht := (rfl)
@[simp] theorem State.withCycle_rdo (x : Nat) : (s.withCycle x).rdo = s.rdo := (rfl)
@[simp] theorem State.withCycle_pipe (x : Nat) : (s.withCycle x).pipe = s.pipe := (rfl)
@[simp] theorem State.withCycle_wins (x : Nat) : (s.withCycle x).wins = s.wins := (rfl)
@[simp] theorem State.withCycle_arc (x : Nat) : (s.withCycle x).arc = s.arc := (rfl)
@[simp] theorem State.withCycle_npc (x : Nat) : (s.withCycle x).npc = s.npc := (rfl)
@[simp] theorem State.withCycle_hk (x : Nat) : (s.withCycle x).hk = s.hk := (rfl)
@[simp] theorem State.withCycle_pio (x : Nat) : (s.withCycle x).pio = s.pio := (rfl)
@[simp] theorem State.withCycle_arcadeMem (x : Nat) : (s.withCycle x).arcadeMem = s.arcadeMem := (rfl)
@[simp] theorem State.withCycle_tensorMem (x : Nat) : (s.withCycle x).tensorMem = s.tensorMem := (rfl)
@[simp] theorem State.withCycle_pending (x : Nat) : (s.withCycle x).pending = s.pending := (rfl)

/-! ### State.withFresh -/

@[simp] theorem State.withFresh_cycle (x : Nat) : (s.withFresh x).cycle = s.cycle := (rfl)
@[simp] theorem State.withFresh_fresh (x : Nat) : (s.withFresh x).fresh = x := (rfl)
@[simp] theorem State.withFresh_regs (x : Nat) : (s.withFresh x).regs = s.regs := (rfl)
@[simp] theorem State.withFresh_live (x : Nat) : (s.withFresh x).live = s.live := (rfl)
@[simp] theorem State.withFresh_heldOld (x : Nat) : (s.withFresh x).heldOld = s.heldOld := (rfl)
@[simp] theorem State.withFresh_freshBits (x : Nat) : (s.withFresh x).freshBits = s.freshBits := (rfl)
@[simp] theorem State.withFresh_supply (x : Nat) : (s.withFresh x).supply = s.supply := (rfl)
@[simp] theorem State.withFresh_clk (x : Nat) : (s.withFresh x).clk = s.clk := (rfl)
@[simp] theorem State.withFresh_cfg (x : Nat) : (s.withFresh x).cfg = s.cfg := (rfl)
@[simp] theorem State.withFresh_boot (x : Nat) : (s.withFresh x).boot = s.boot := (rfl)
@[simp] theorem State.withFresh_nvm (x : Nat) : (s.withFresh x).nvm = s.nvm := (rfl)
@[simp] theorem State.withFresh_ports (x : Nat) : (s.withFresh x).ports = s.ports := (rfl)
@[simp] theorem State.withFresh_pwr (x : Nat) : (s.withFresh x).pwr = s.pwr := (rfl)
@[simp] theorem State.withFresh_evf (x : Nat) : (s.withFresh x).evf = s.evf := (rfl)
@[simp] theorem State.withFresh_time (x : Nat) : (s.withFresh x).time = s.time := (rfl)
@[simp] theorem State.withFresh_cnt (x : Nat) : (s.withFresh x).cnt = s.cnt := (rfl)
@[simp] theorem State.withFresh_safe (x : Nat) : (s.withFresh x).safe = s.safe := (rfl)
@[simp] theorem State.withFresh_rings (x : Nat) : (s.withFresh x).rings = s.rings := (rfl)
@[simp] theorem State.withFresh_link (x : Nat) : (s.withFresh x).link = s.link := (rfl)
@[simp] theorem State.withFresh_sht (x : Nat) : (s.withFresh x).sht = s.sht := (rfl)
@[simp] theorem State.withFresh_rdo (x : Nat) : (s.withFresh x).rdo = s.rdo := (rfl)
@[simp] theorem State.withFresh_pipe (x : Nat) : (s.withFresh x).pipe = s.pipe := (rfl)
@[simp] theorem State.withFresh_wins (x : Nat) : (s.withFresh x).wins = s.wins := (rfl)
@[simp] theorem State.withFresh_arc (x : Nat) : (s.withFresh x).arc = s.arc := (rfl)
@[simp] theorem State.withFresh_npc (x : Nat) : (s.withFresh x).npc = s.npc := (rfl)
@[simp] theorem State.withFresh_hk (x : Nat) : (s.withFresh x).hk = s.hk := (rfl)
@[simp] theorem State.withFresh_pio (x : Nat) : (s.withFresh x).pio = s.pio := (rfl)
@[simp] theorem State.withFresh_arcadeMem (x : Nat) : (s.withFresh x).arcadeMem = s.arcadeMem := (rfl)
@[simp] theorem State.withFresh_tensorMem (x : Nat) : (s.withFresh x).tensorMem = s.tensorMem := (rfl)
@[simp] theorem State.withFresh_pending (x : Nat) : (s.withFresh x).pending = s.pending := (rfl)

/-! ### State.withRegs -/

@[simp] theorem State.withRegs_cycle (x : List (Nat × Word)) : (s.withRegs x).cycle = s.cycle := (rfl)
@[simp] theorem State.withRegs_fresh (x : List (Nat × Word)) : (s.withRegs x).fresh = s.fresh := (rfl)
@[simp] theorem State.withRegs_regs (x : List (Nat × Word)) : (s.withRegs x).regs = x := (rfl)
@[simp] theorem State.withRegs_live (x : List (Nat × Word)) : (s.withRegs x).live = s.live := (rfl)
@[simp] theorem State.withRegs_heldOld (x : List (Nat × Word)) : (s.withRegs x).heldOld = s.heldOld := (rfl)
@[simp] theorem State.withRegs_freshBits (x : List (Nat × Word)) : (s.withRegs x).freshBits = s.freshBits := (rfl)
@[simp] theorem State.withRegs_supply (x : List (Nat × Word)) : (s.withRegs x).supply = s.supply := (rfl)
@[simp] theorem State.withRegs_clk (x : List (Nat × Word)) : (s.withRegs x).clk = s.clk := (rfl)
@[simp] theorem State.withRegs_cfg (x : List (Nat × Word)) : (s.withRegs x).cfg = s.cfg := (rfl)
@[simp] theorem State.withRegs_boot (x : List (Nat × Word)) : (s.withRegs x).boot = s.boot := (rfl)
@[simp] theorem State.withRegs_nvm (x : List (Nat × Word)) : (s.withRegs x).nvm = s.nvm := (rfl)
@[simp] theorem State.withRegs_ports (x : List (Nat × Word)) : (s.withRegs x).ports = s.ports := (rfl)
@[simp] theorem State.withRegs_pwr (x : List (Nat × Word)) : (s.withRegs x).pwr = s.pwr := (rfl)
@[simp] theorem State.withRegs_evf (x : List (Nat × Word)) : (s.withRegs x).evf = s.evf := (rfl)
@[simp] theorem State.withRegs_time (x : List (Nat × Word)) : (s.withRegs x).time = s.time := (rfl)
@[simp] theorem State.withRegs_cnt (x : List (Nat × Word)) : (s.withRegs x).cnt = s.cnt := (rfl)
@[simp] theorem State.withRegs_safe (x : List (Nat × Word)) : (s.withRegs x).safe = s.safe := (rfl)
@[simp] theorem State.withRegs_rings (x : List (Nat × Word)) : (s.withRegs x).rings = s.rings := (rfl)
@[simp] theorem State.withRegs_link (x : List (Nat × Word)) : (s.withRegs x).link = s.link := (rfl)
@[simp] theorem State.withRegs_sht (x : List (Nat × Word)) : (s.withRegs x).sht = s.sht := (rfl)
@[simp] theorem State.withRegs_rdo (x : List (Nat × Word)) : (s.withRegs x).rdo = s.rdo := (rfl)
@[simp] theorem State.withRegs_pipe (x : List (Nat × Word)) : (s.withRegs x).pipe = s.pipe := (rfl)
@[simp] theorem State.withRegs_wins (x : List (Nat × Word)) : (s.withRegs x).wins = s.wins := (rfl)
@[simp] theorem State.withRegs_arc (x : List (Nat × Word)) : (s.withRegs x).arc = s.arc := (rfl)
@[simp] theorem State.withRegs_npc (x : List (Nat × Word)) : (s.withRegs x).npc = s.npc := (rfl)
@[simp] theorem State.withRegs_hk (x : List (Nat × Word)) : (s.withRegs x).hk = s.hk := (rfl)
@[simp] theorem State.withRegs_pio (x : List (Nat × Word)) : (s.withRegs x).pio = s.pio := (rfl)
@[simp] theorem State.withRegs_arcadeMem (x : List (Nat × Word)) : (s.withRegs x).arcadeMem = s.arcadeMem := (rfl)
@[simp] theorem State.withRegs_tensorMem (x : List (Nat × Word)) : (s.withRegs x).tensorMem = s.tensorMem := (rfl)
@[simp] theorem State.withRegs_pending (x : List (Nat × Word)) : (s.withRegs x).pending = s.pending := (rfl)

/-! ### State.withLive -/

@[simp] theorem State.withLive_cycle (x : List (Nat × Word)) : (s.withLive x).cycle = s.cycle := (rfl)
@[simp] theorem State.withLive_fresh (x : List (Nat × Word)) : (s.withLive x).fresh = s.fresh := (rfl)
@[simp] theorem State.withLive_regs (x : List (Nat × Word)) : (s.withLive x).regs = s.regs := (rfl)
@[simp] theorem State.withLive_live (x : List (Nat × Word)) : (s.withLive x).live = x := (rfl)
@[simp] theorem State.withLive_heldOld (x : List (Nat × Word)) : (s.withLive x).heldOld = s.heldOld := (rfl)
@[simp] theorem State.withLive_freshBits (x : List (Nat × Word)) : (s.withLive x).freshBits = s.freshBits := (rfl)
@[simp] theorem State.withLive_supply (x : List (Nat × Word)) : (s.withLive x).supply = s.supply := (rfl)
@[simp] theorem State.withLive_clk (x : List (Nat × Word)) : (s.withLive x).clk = s.clk := (rfl)
@[simp] theorem State.withLive_cfg (x : List (Nat × Word)) : (s.withLive x).cfg = s.cfg := (rfl)
@[simp] theorem State.withLive_boot (x : List (Nat × Word)) : (s.withLive x).boot = s.boot := (rfl)
@[simp] theorem State.withLive_nvm (x : List (Nat × Word)) : (s.withLive x).nvm = s.nvm := (rfl)
@[simp] theorem State.withLive_ports (x : List (Nat × Word)) : (s.withLive x).ports = s.ports := (rfl)
@[simp] theorem State.withLive_pwr (x : List (Nat × Word)) : (s.withLive x).pwr = s.pwr := (rfl)
@[simp] theorem State.withLive_evf (x : List (Nat × Word)) : (s.withLive x).evf = s.evf := (rfl)
@[simp] theorem State.withLive_time (x : List (Nat × Word)) : (s.withLive x).time = s.time := (rfl)
@[simp] theorem State.withLive_cnt (x : List (Nat × Word)) : (s.withLive x).cnt = s.cnt := (rfl)
@[simp] theorem State.withLive_safe (x : List (Nat × Word)) : (s.withLive x).safe = s.safe := (rfl)
@[simp] theorem State.withLive_rings (x : List (Nat × Word)) : (s.withLive x).rings = s.rings := (rfl)
@[simp] theorem State.withLive_link (x : List (Nat × Word)) : (s.withLive x).link = s.link := (rfl)
@[simp] theorem State.withLive_sht (x : List (Nat × Word)) : (s.withLive x).sht = s.sht := (rfl)
@[simp] theorem State.withLive_rdo (x : List (Nat × Word)) : (s.withLive x).rdo = s.rdo := (rfl)
@[simp] theorem State.withLive_pipe (x : List (Nat × Word)) : (s.withLive x).pipe = s.pipe := (rfl)
@[simp] theorem State.withLive_wins (x : List (Nat × Word)) : (s.withLive x).wins = s.wins := (rfl)
@[simp] theorem State.withLive_arc (x : List (Nat × Word)) : (s.withLive x).arc = s.arc := (rfl)
@[simp] theorem State.withLive_npc (x : List (Nat × Word)) : (s.withLive x).npc = s.npc := (rfl)
@[simp] theorem State.withLive_hk (x : List (Nat × Word)) : (s.withLive x).hk = s.hk := (rfl)
@[simp] theorem State.withLive_pio (x : List (Nat × Word)) : (s.withLive x).pio = s.pio := (rfl)
@[simp] theorem State.withLive_arcadeMem (x : List (Nat × Word)) : (s.withLive x).arcadeMem = s.arcadeMem := (rfl)
@[simp] theorem State.withLive_tensorMem (x : List (Nat × Word)) : (s.withLive x).tensorMem = s.tensorMem := (rfl)
@[simp] theorem State.withLive_pending (x : List (Nat × Word)) : (s.withLive x).pending = s.pending := (rfl)

/-! ### State.withHeldOld -/

@[simp] theorem State.withHeldOld_cycle (x : List (Nat × Word)) : (s.withHeldOld x).cycle = s.cycle := (rfl)
@[simp] theorem State.withHeldOld_fresh (x : List (Nat × Word)) : (s.withHeldOld x).fresh = s.fresh := (rfl)
@[simp] theorem State.withHeldOld_regs (x : List (Nat × Word)) : (s.withHeldOld x).regs = s.regs := (rfl)
@[simp] theorem State.withHeldOld_live (x : List (Nat × Word)) : (s.withHeldOld x).live = s.live := (rfl)
@[simp] theorem State.withHeldOld_heldOld (x : List (Nat × Word)) : (s.withHeldOld x).heldOld = x := (rfl)
@[simp] theorem State.withHeldOld_freshBits (x : List (Nat × Word)) : (s.withHeldOld x).freshBits = s.freshBits := (rfl)
@[simp] theorem State.withHeldOld_supply (x : List (Nat × Word)) : (s.withHeldOld x).supply = s.supply := (rfl)
@[simp] theorem State.withHeldOld_clk (x : List (Nat × Word)) : (s.withHeldOld x).clk = s.clk := (rfl)
@[simp] theorem State.withHeldOld_cfg (x : List (Nat × Word)) : (s.withHeldOld x).cfg = s.cfg := (rfl)
@[simp] theorem State.withHeldOld_boot (x : List (Nat × Word)) : (s.withHeldOld x).boot = s.boot := (rfl)
@[simp] theorem State.withHeldOld_nvm (x : List (Nat × Word)) : (s.withHeldOld x).nvm = s.nvm := (rfl)
@[simp] theorem State.withHeldOld_ports (x : List (Nat × Word)) : (s.withHeldOld x).ports = s.ports := (rfl)
@[simp] theorem State.withHeldOld_pwr (x : List (Nat × Word)) : (s.withHeldOld x).pwr = s.pwr := (rfl)
@[simp] theorem State.withHeldOld_evf (x : List (Nat × Word)) : (s.withHeldOld x).evf = s.evf := (rfl)
@[simp] theorem State.withHeldOld_time (x : List (Nat × Word)) : (s.withHeldOld x).time = s.time := (rfl)
@[simp] theorem State.withHeldOld_cnt (x : List (Nat × Word)) : (s.withHeldOld x).cnt = s.cnt := (rfl)
@[simp] theorem State.withHeldOld_safe (x : List (Nat × Word)) : (s.withHeldOld x).safe = s.safe := (rfl)
@[simp] theorem State.withHeldOld_rings (x : List (Nat × Word)) : (s.withHeldOld x).rings = s.rings := (rfl)
@[simp] theorem State.withHeldOld_link (x : List (Nat × Word)) : (s.withHeldOld x).link = s.link := (rfl)
@[simp] theorem State.withHeldOld_sht (x : List (Nat × Word)) : (s.withHeldOld x).sht = s.sht := (rfl)
@[simp] theorem State.withHeldOld_rdo (x : List (Nat × Word)) : (s.withHeldOld x).rdo = s.rdo := (rfl)
@[simp] theorem State.withHeldOld_pipe (x : List (Nat × Word)) : (s.withHeldOld x).pipe = s.pipe := (rfl)
@[simp] theorem State.withHeldOld_wins (x : List (Nat × Word)) : (s.withHeldOld x).wins = s.wins := (rfl)
@[simp] theorem State.withHeldOld_arc (x : List (Nat × Word)) : (s.withHeldOld x).arc = s.arc := (rfl)
@[simp] theorem State.withHeldOld_npc (x : List (Nat × Word)) : (s.withHeldOld x).npc = s.npc := (rfl)
@[simp] theorem State.withHeldOld_hk (x : List (Nat × Word)) : (s.withHeldOld x).hk = s.hk := (rfl)
@[simp] theorem State.withHeldOld_pio (x : List (Nat × Word)) : (s.withHeldOld x).pio = s.pio := (rfl)
@[simp] theorem State.withHeldOld_arcadeMem (x : List (Nat × Word)) : (s.withHeldOld x).arcadeMem = s.arcadeMem := (rfl)
@[simp] theorem State.withHeldOld_tensorMem (x : List (Nat × Word)) : (s.withHeldOld x).tensorMem = s.tensorMem := (rfl)
@[simp] theorem State.withHeldOld_pending (x : List (Nat × Word)) : (s.withHeldOld x).pending = s.pending := (rfl)

/-! ### State.withFreshBits -/

@[simp] theorem State.withFreshBits_cycle (x : List (Nat × Nat)) : (s.withFreshBits x).cycle = s.cycle := (rfl)
@[simp] theorem State.withFreshBits_fresh (x : List (Nat × Nat)) : (s.withFreshBits x).fresh = s.fresh := (rfl)
@[simp] theorem State.withFreshBits_regs (x : List (Nat × Nat)) : (s.withFreshBits x).regs = s.regs := (rfl)
@[simp] theorem State.withFreshBits_live (x : List (Nat × Nat)) : (s.withFreshBits x).live = s.live := (rfl)
@[simp] theorem State.withFreshBits_heldOld (x : List (Nat × Nat)) : (s.withFreshBits x).heldOld = s.heldOld := (rfl)
@[simp] theorem State.withFreshBits_freshBits (x : List (Nat × Nat)) : (s.withFreshBits x).freshBits = x := (rfl)
@[simp] theorem State.withFreshBits_supply (x : List (Nat × Nat)) : (s.withFreshBits x).supply = s.supply := (rfl)
@[simp] theorem State.withFreshBits_clk (x : List (Nat × Nat)) : (s.withFreshBits x).clk = s.clk := (rfl)
@[simp] theorem State.withFreshBits_cfg (x : List (Nat × Nat)) : (s.withFreshBits x).cfg = s.cfg := (rfl)
@[simp] theorem State.withFreshBits_boot (x : List (Nat × Nat)) : (s.withFreshBits x).boot = s.boot := (rfl)
@[simp] theorem State.withFreshBits_nvm (x : List (Nat × Nat)) : (s.withFreshBits x).nvm = s.nvm := (rfl)
@[simp] theorem State.withFreshBits_ports (x : List (Nat × Nat)) : (s.withFreshBits x).ports = s.ports := (rfl)
@[simp] theorem State.withFreshBits_pwr (x : List (Nat × Nat)) : (s.withFreshBits x).pwr = s.pwr := (rfl)
@[simp] theorem State.withFreshBits_evf (x : List (Nat × Nat)) : (s.withFreshBits x).evf = s.evf := (rfl)
@[simp] theorem State.withFreshBits_time (x : List (Nat × Nat)) : (s.withFreshBits x).time = s.time := (rfl)
@[simp] theorem State.withFreshBits_cnt (x : List (Nat × Nat)) : (s.withFreshBits x).cnt = s.cnt := (rfl)
@[simp] theorem State.withFreshBits_safe (x : List (Nat × Nat)) : (s.withFreshBits x).safe = s.safe := (rfl)
@[simp] theorem State.withFreshBits_rings (x : List (Nat × Nat)) : (s.withFreshBits x).rings = s.rings := (rfl)
@[simp] theorem State.withFreshBits_link (x : List (Nat × Nat)) : (s.withFreshBits x).link = s.link := (rfl)
@[simp] theorem State.withFreshBits_sht (x : List (Nat × Nat)) : (s.withFreshBits x).sht = s.sht := (rfl)
@[simp] theorem State.withFreshBits_rdo (x : List (Nat × Nat)) : (s.withFreshBits x).rdo = s.rdo := (rfl)
@[simp] theorem State.withFreshBits_pipe (x : List (Nat × Nat)) : (s.withFreshBits x).pipe = s.pipe := (rfl)
@[simp] theorem State.withFreshBits_wins (x : List (Nat × Nat)) : (s.withFreshBits x).wins = s.wins := (rfl)
@[simp] theorem State.withFreshBits_arc (x : List (Nat × Nat)) : (s.withFreshBits x).arc = s.arc := (rfl)
@[simp] theorem State.withFreshBits_npc (x : List (Nat × Nat)) : (s.withFreshBits x).npc = s.npc := (rfl)
@[simp] theorem State.withFreshBits_hk (x : List (Nat × Nat)) : (s.withFreshBits x).hk = s.hk := (rfl)
@[simp] theorem State.withFreshBits_pio (x : List (Nat × Nat)) : (s.withFreshBits x).pio = s.pio := (rfl)
@[simp] theorem State.withFreshBits_arcadeMem (x : List (Nat × Nat)) : (s.withFreshBits x).arcadeMem = s.arcadeMem := (rfl)
@[simp] theorem State.withFreshBits_tensorMem (x : List (Nat × Nat)) : (s.withFreshBits x).tensorMem = s.tensorMem := (rfl)
@[simp] theorem State.withFreshBits_pending (x : List (Nat × Nat)) : (s.withFreshBits x).pending = s.pending := (rfl)

/-! ### State.withSupply -/

@[simp] theorem State.withSupply_cycle (x : Supply) : (s.withSupply x).cycle = s.cycle := (rfl)
@[simp] theorem State.withSupply_fresh (x : Supply) : (s.withSupply x).fresh = s.fresh := (rfl)
@[simp] theorem State.withSupply_regs (x : Supply) : (s.withSupply x).regs = s.regs := (rfl)
@[simp] theorem State.withSupply_live (x : Supply) : (s.withSupply x).live = s.live := (rfl)
@[simp] theorem State.withSupply_heldOld (x : Supply) : (s.withSupply x).heldOld = s.heldOld := (rfl)
@[simp] theorem State.withSupply_freshBits (x : Supply) : (s.withSupply x).freshBits = s.freshBits := (rfl)
@[simp] theorem State.withSupply_supply (x : Supply) : (s.withSupply x).supply = x := (rfl)
@[simp] theorem State.withSupply_clk (x : Supply) : (s.withSupply x).clk = s.clk := (rfl)
@[simp] theorem State.withSupply_cfg (x : Supply) : (s.withSupply x).cfg = s.cfg := (rfl)
@[simp] theorem State.withSupply_boot (x : Supply) : (s.withSupply x).boot = s.boot := (rfl)
@[simp] theorem State.withSupply_nvm (x : Supply) : (s.withSupply x).nvm = s.nvm := (rfl)
@[simp] theorem State.withSupply_ports (x : Supply) : (s.withSupply x).ports = s.ports := (rfl)
@[simp] theorem State.withSupply_pwr (x : Supply) : (s.withSupply x).pwr = s.pwr := (rfl)
@[simp] theorem State.withSupply_evf (x : Supply) : (s.withSupply x).evf = s.evf := (rfl)
@[simp] theorem State.withSupply_time (x : Supply) : (s.withSupply x).time = s.time := (rfl)
@[simp] theorem State.withSupply_cnt (x : Supply) : (s.withSupply x).cnt = s.cnt := (rfl)
@[simp] theorem State.withSupply_safe (x : Supply) : (s.withSupply x).safe = s.safe := (rfl)
@[simp] theorem State.withSupply_rings (x : Supply) : (s.withSupply x).rings = s.rings := (rfl)
@[simp] theorem State.withSupply_link (x : Supply) : (s.withSupply x).link = s.link := (rfl)
@[simp] theorem State.withSupply_sht (x : Supply) : (s.withSupply x).sht = s.sht := (rfl)
@[simp] theorem State.withSupply_rdo (x : Supply) : (s.withSupply x).rdo = s.rdo := (rfl)
@[simp] theorem State.withSupply_pipe (x : Supply) : (s.withSupply x).pipe = s.pipe := (rfl)
@[simp] theorem State.withSupply_wins (x : Supply) : (s.withSupply x).wins = s.wins := (rfl)
@[simp] theorem State.withSupply_arc (x : Supply) : (s.withSupply x).arc = s.arc := (rfl)
@[simp] theorem State.withSupply_npc (x : Supply) : (s.withSupply x).npc = s.npc := (rfl)
@[simp] theorem State.withSupply_hk (x : Supply) : (s.withSupply x).hk = s.hk := (rfl)
@[simp] theorem State.withSupply_pio (x : Supply) : (s.withSupply x).pio = s.pio := (rfl)
@[simp] theorem State.withSupply_arcadeMem (x : Supply) : (s.withSupply x).arcadeMem = s.arcadeMem := (rfl)
@[simp] theorem State.withSupply_tensorMem (x : Supply) : (s.withSupply x).tensorMem = s.tensorMem := (rfl)
@[simp] theorem State.withSupply_pending (x : Supply) : (s.withSupply x).pending = s.pending := (rfl)

/-! ### State.withClk -/

@[simp] theorem State.withClk_cycle (x : Clocks) : (s.withClk x).cycle = s.cycle := (rfl)
@[simp] theorem State.withClk_fresh (x : Clocks) : (s.withClk x).fresh = s.fresh := (rfl)
@[simp] theorem State.withClk_regs (x : Clocks) : (s.withClk x).regs = s.regs := (rfl)
@[simp] theorem State.withClk_live (x : Clocks) : (s.withClk x).live = s.live := (rfl)
@[simp] theorem State.withClk_heldOld (x : Clocks) : (s.withClk x).heldOld = s.heldOld := (rfl)
@[simp] theorem State.withClk_freshBits (x : Clocks) : (s.withClk x).freshBits = s.freshBits := (rfl)
@[simp] theorem State.withClk_supply (x : Clocks) : (s.withClk x).supply = s.supply := (rfl)
@[simp] theorem State.withClk_clk (x : Clocks) : (s.withClk x).clk = x := (rfl)
@[simp] theorem State.withClk_cfg (x : Clocks) : (s.withClk x).cfg = s.cfg := (rfl)
@[simp] theorem State.withClk_boot (x : Clocks) : (s.withClk x).boot = s.boot := (rfl)
@[simp] theorem State.withClk_nvm (x : Clocks) : (s.withClk x).nvm = s.nvm := (rfl)
@[simp] theorem State.withClk_ports (x : Clocks) : (s.withClk x).ports = s.ports := (rfl)
@[simp] theorem State.withClk_pwr (x : Clocks) : (s.withClk x).pwr = s.pwr := (rfl)
@[simp] theorem State.withClk_evf (x : Clocks) : (s.withClk x).evf = s.evf := (rfl)
@[simp] theorem State.withClk_time (x : Clocks) : (s.withClk x).time = s.time := (rfl)
@[simp] theorem State.withClk_cnt (x : Clocks) : (s.withClk x).cnt = s.cnt := (rfl)
@[simp] theorem State.withClk_safe (x : Clocks) : (s.withClk x).safe = s.safe := (rfl)
@[simp] theorem State.withClk_rings (x : Clocks) : (s.withClk x).rings = s.rings := (rfl)
@[simp] theorem State.withClk_link (x : Clocks) : (s.withClk x).link = s.link := (rfl)
@[simp] theorem State.withClk_sht (x : Clocks) : (s.withClk x).sht = s.sht := (rfl)
@[simp] theorem State.withClk_rdo (x : Clocks) : (s.withClk x).rdo = s.rdo := (rfl)
@[simp] theorem State.withClk_pipe (x : Clocks) : (s.withClk x).pipe = s.pipe := (rfl)
@[simp] theorem State.withClk_wins (x : Clocks) : (s.withClk x).wins = s.wins := (rfl)
@[simp] theorem State.withClk_arc (x : Clocks) : (s.withClk x).arc = s.arc := (rfl)
@[simp] theorem State.withClk_npc (x : Clocks) : (s.withClk x).npc = s.npc := (rfl)
@[simp] theorem State.withClk_hk (x : Clocks) : (s.withClk x).hk = s.hk := (rfl)
@[simp] theorem State.withClk_pio (x : Clocks) : (s.withClk x).pio = s.pio := (rfl)
@[simp] theorem State.withClk_arcadeMem (x : Clocks) : (s.withClk x).arcadeMem = s.arcadeMem := (rfl)
@[simp] theorem State.withClk_tensorMem (x : Clocks) : (s.withClk x).tensorMem = s.tensorMem := (rfl)
@[simp] theorem State.withClk_pending (x : Clocks) : (s.withClk x).pending = s.pending := (rfl)

/-! ### State.withCfg -/

@[simp] theorem State.withCfg_cycle (x : Loader) : (s.withCfg x).cycle = s.cycle := (rfl)
@[simp] theorem State.withCfg_fresh (x : Loader) : (s.withCfg x).fresh = s.fresh := (rfl)
@[simp] theorem State.withCfg_regs (x : Loader) : (s.withCfg x).regs = s.regs := (rfl)
@[simp] theorem State.withCfg_live (x : Loader) : (s.withCfg x).live = s.live := (rfl)
@[simp] theorem State.withCfg_heldOld (x : Loader) : (s.withCfg x).heldOld = s.heldOld := (rfl)
@[simp] theorem State.withCfg_freshBits (x : Loader) : (s.withCfg x).freshBits = s.freshBits := (rfl)
@[simp] theorem State.withCfg_supply (x : Loader) : (s.withCfg x).supply = s.supply := (rfl)
@[simp] theorem State.withCfg_clk (x : Loader) : (s.withCfg x).clk = s.clk := (rfl)
@[simp] theorem State.withCfg_cfg (x : Loader) : (s.withCfg x).cfg = x := (rfl)
@[simp] theorem State.withCfg_boot (x : Loader) : (s.withCfg x).boot = s.boot := (rfl)
@[simp] theorem State.withCfg_nvm (x : Loader) : (s.withCfg x).nvm = s.nvm := (rfl)
@[simp] theorem State.withCfg_ports (x : Loader) : (s.withCfg x).ports = s.ports := (rfl)
@[simp] theorem State.withCfg_pwr (x : Loader) : (s.withCfg x).pwr = s.pwr := (rfl)
@[simp] theorem State.withCfg_evf (x : Loader) : (s.withCfg x).evf = s.evf := (rfl)
@[simp] theorem State.withCfg_time (x : Loader) : (s.withCfg x).time = s.time := (rfl)
@[simp] theorem State.withCfg_cnt (x : Loader) : (s.withCfg x).cnt = s.cnt := (rfl)
@[simp] theorem State.withCfg_safe (x : Loader) : (s.withCfg x).safe = s.safe := (rfl)
@[simp] theorem State.withCfg_rings (x : Loader) : (s.withCfg x).rings = s.rings := (rfl)
@[simp] theorem State.withCfg_link (x : Loader) : (s.withCfg x).link = s.link := (rfl)
@[simp] theorem State.withCfg_sht (x : Loader) : (s.withCfg x).sht = s.sht := (rfl)
@[simp] theorem State.withCfg_rdo (x : Loader) : (s.withCfg x).rdo = s.rdo := (rfl)
@[simp] theorem State.withCfg_pipe (x : Loader) : (s.withCfg x).pipe = s.pipe := (rfl)
@[simp] theorem State.withCfg_wins (x : Loader) : (s.withCfg x).wins = s.wins := (rfl)
@[simp] theorem State.withCfg_arc (x : Loader) : (s.withCfg x).arc = s.arc := (rfl)
@[simp] theorem State.withCfg_npc (x : Loader) : (s.withCfg x).npc = s.npc := (rfl)
@[simp] theorem State.withCfg_hk (x : Loader) : (s.withCfg x).hk = s.hk := (rfl)
@[simp] theorem State.withCfg_pio (x : Loader) : (s.withCfg x).pio = s.pio := (rfl)
@[simp] theorem State.withCfg_arcadeMem (x : Loader) : (s.withCfg x).arcadeMem = s.arcadeMem := (rfl)
@[simp] theorem State.withCfg_tensorMem (x : Loader) : (s.withCfg x).tensorMem = s.tensorMem := (rfl)
@[simp] theorem State.withCfg_pending (x : Loader) : (s.withCfg x).pending = s.pending := (rfl)

/-! ### State.withBoot -/

@[simp] theorem State.withBoot_cycle (x : Boot) : (s.withBoot x).cycle = s.cycle := (rfl)
@[simp] theorem State.withBoot_fresh (x : Boot) : (s.withBoot x).fresh = s.fresh := (rfl)
@[simp] theorem State.withBoot_regs (x : Boot) : (s.withBoot x).regs = s.regs := (rfl)
@[simp] theorem State.withBoot_live (x : Boot) : (s.withBoot x).live = s.live := (rfl)
@[simp] theorem State.withBoot_heldOld (x : Boot) : (s.withBoot x).heldOld = s.heldOld := (rfl)
@[simp] theorem State.withBoot_freshBits (x : Boot) : (s.withBoot x).freshBits = s.freshBits := (rfl)
@[simp] theorem State.withBoot_supply (x : Boot) : (s.withBoot x).supply = s.supply := (rfl)
@[simp] theorem State.withBoot_clk (x : Boot) : (s.withBoot x).clk = s.clk := (rfl)
@[simp] theorem State.withBoot_cfg (x : Boot) : (s.withBoot x).cfg = s.cfg := (rfl)
@[simp] theorem State.withBoot_boot (x : Boot) : (s.withBoot x).boot = x := (rfl)
@[simp] theorem State.withBoot_nvm (x : Boot) : (s.withBoot x).nvm = s.nvm := (rfl)
@[simp] theorem State.withBoot_ports (x : Boot) : (s.withBoot x).ports = s.ports := (rfl)
@[simp] theorem State.withBoot_pwr (x : Boot) : (s.withBoot x).pwr = s.pwr := (rfl)
@[simp] theorem State.withBoot_evf (x : Boot) : (s.withBoot x).evf = s.evf := (rfl)
@[simp] theorem State.withBoot_time (x : Boot) : (s.withBoot x).time = s.time := (rfl)
@[simp] theorem State.withBoot_cnt (x : Boot) : (s.withBoot x).cnt = s.cnt := (rfl)
@[simp] theorem State.withBoot_safe (x : Boot) : (s.withBoot x).safe = s.safe := (rfl)
@[simp] theorem State.withBoot_rings (x : Boot) : (s.withBoot x).rings = s.rings := (rfl)
@[simp] theorem State.withBoot_link (x : Boot) : (s.withBoot x).link = s.link := (rfl)
@[simp] theorem State.withBoot_sht (x : Boot) : (s.withBoot x).sht = s.sht := (rfl)
@[simp] theorem State.withBoot_rdo (x : Boot) : (s.withBoot x).rdo = s.rdo := (rfl)
@[simp] theorem State.withBoot_pipe (x : Boot) : (s.withBoot x).pipe = s.pipe := (rfl)
@[simp] theorem State.withBoot_wins (x : Boot) : (s.withBoot x).wins = s.wins := (rfl)
@[simp] theorem State.withBoot_arc (x : Boot) : (s.withBoot x).arc = s.arc := (rfl)
@[simp] theorem State.withBoot_npc (x : Boot) : (s.withBoot x).npc = s.npc := (rfl)
@[simp] theorem State.withBoot_hk (x : Boot) : (s.withBoot x).hk = s.hk := (rfl)
@[simp] theorem State.withBoot_pio (x : Boot) : (s.withBoot x).pio = s.pio := (rfl)
@[simp] theorem State.withBoot_arcadeMem (x : Boot) : (s.withBoot x).arcadeMem = s.arcadeMem := (rfl)
@[simp] theorem State.withBoot_tensorMem (x : Boot) : (s.withBoot x).tensorMem = s.tensorMem := (rfl)
@[simp] theorem State.withBoot_pending (x : Boot) : (s.withBoot x).pending = s.pending := (rfl)

/-! ### State.withNvm -/

@[simp] theorem State.withNvm_cycle (x : Nvm) : (s.withNvm x).cycle = s.cycle := (rfl)
@[simp] theorem State.withNvm_fresh (x : Nvm) : (s.withNvm x).fresh = s.fresh := (rfl)
@[simp] theorem State.withNvm_regs (x : Nvm) : (s.withNvm x).regs = s.regs := (rfl)
@[simp] theorem State.withNvm_live (x : Nvm) : (s.withNvm x).live = s.live := (rfl)
@[simp] theorem State.withNvm_heldOld (x : Nvm) : (s.withNvm x).heldOld = s.heldOld := (rfl)
@[simp] theorem State.withNvm_freshBits (x : Nvm) : (s.withNvm x).freshBits = s.freshBits := (rfl)
@[simp] theorem State.withNvm_supply (x : Nvm) : (s.withNvm x).supply = s.supply := (rfl)
@[simp] theorem State.withNvm_clk (x : Nvm) : (s.withNvm x).clk = s.clk := (rfl)
@[simp] theorem State.withNvm_cfg (x : Nvm) : (s.withNvm x).cfg = s.cfg := (rfl)
@[simp] theorem State.withNvm_boot (x : Nvm) : (s.withNvm x).boot = s.boot := (rfl)
@[simp] theorem State.withNvm_nvm (x : Nvm) : (s.withNvm x).nvm = x := (rfl)
@[simp] theorem State.withNvm_ports (x : Nvm) : (s.withNvm x).ports = s.ports := (rfl)
@[simp] theorem State.withNvm_pwr (x : Nvm) : (s.withNvm x).pwr = s.pwr := (rfl)
@[simp] theorem State.withNvm_evf (x : Nvm) : (s.withNvm x).evf = s.evf := (rfl)
@[simp] theorem State.withNvm_time (x : Nvm) : (s.withNvm x).time = s.time := (rfl)
@[simp] theorem State.withNvm_cnt (x : Nvm) : (s.withNvm x).cnt = s.cnt := (rfl)
@[simp] theorem State.withNvm_safe (x : Nvm) : (s.withNvm x).safe = s.safe := (rfl)
@[simp] theorem State.withNvm_rings (x : Nvm) : (s.withNvm x).rings = s.rings := (rfl)
@[simp] theorem State.withNvm_link (x : Nvm) : (s.withNvm x).link = s.link := (rfl)
@[simp] theorem State.withNvm_sht (x : Nvm) : (s.withNvm x).sht = s.sht := (rfl)
@[simp] theorem State.withNvm_rdo (x : Nvm) : (s.withNvm x).rdo = s.rdo := (rfl)
@[simp] theorem State.withNvm_pipe (x : Nvm) : (s.withNvm x).pipe = s.pipe := (rfl)
@[simp] theorem State.withNvm_wins (x : Nvm) : (s.withNvm x).wins = s.wins := (rfl)
@[simp] theorem State.withNvm_arc (x : Nvm) : (s.withNvm x).arc = s.arc := (rfl)
@[simp] theorem State.withNvm_npc (x : Nvm) : (s.withNvm x).npc = s.npc := (rfl)
@[simp] theorem State.withNvm_hk (x : Nvm) : (s.withNvm x).hk = s.hk := (rfl)
@[simp] theorem State.withNvm_pio (x : Nvm) : (s.withNvm x).pio = s.pio := (rfl)
@[simp] theorem State.withNvm_arcadeMem (x : Nvm) : (s.withNvm x).arcadeMem = s.arcadeMem := (rfl)
@[simp] theorem State.withNvm_tensorMem (x : Nvm) : (s.withNvm x).tensorMem = s.tensorMem := (rfl)
@[simp] theorem State.withNvm_pending (x : Nvm) : (s.withNvm x).pending = s.pending := (rfl)

/-! ### State.withPorts -/

@[simp] theorem State.withPorts_cycle (x : Ports) : (s.withPorts x).cycle = s.cycle := (rfl)
@[simp] theorem State.withPorts_fresh (x : Ports) : (s.withPorts x).fresh = s.fresh := (rfl)
@[simp] theorem State.withPorts_regs (x : Ports) : (s.withPorts x).regs = s.regs := (rfl)
@[simp] theorem State.withPorts_live (x : Ports) : (s.withPorts x).live = s.live := (rfl)
@[simp] theorem State.withPorts_heldOld (x : Ports) : (s.withPorts x).heldOld = s.heldOld := (rfl)
@[simp] theorem State.withPorts_freshBits (x : Ports) : (s.withPorts x).freshBits = s.freshBits := (rfl)
@[simp] theorem State.withPorts_supply (x : Ports) : (s.withPorts x).supply = s.supply := (rfl)
@[simp] theorem State.withPorts_clk (x : Ports) : (s.withPorts x).clk = s.clk := (rfl)
@[simp] theorem State.withPorts_cfg (x : Ports) : (s.withPorts x).cfg = s.cfg := (rfl)
@[simp] theorem State.withPorts_boot (x : Ports) : (s.withPorts x).boot = s.boot := (rfl)
@[simp] theorem State.withPorts_nvm (x : Ports) : (s.withPorts x).nvm = s.nvm := (rfl)
@[simp] theorem State.withPorts_ports (x : Ports) : (s.withPorts x).ports = x := (rfl)
@[simp] theorem State.withPorts_pwr (x : Ports) : (s.withPorts x).pwr = s.pwr := (rfl)
@[simp] theorem State.withPorts_evf (x : Ports) : (s.withPorts x).evf = s.evf := (rfl)
@[simp] theorem State.withPorts_time (x : Ports) : (s.withPorts x).time = s.time := (rfl)
@[simp] theorem State.withPorts_cnt (x : Ports) : (s.withPorts x).cnt = s.cnt := (rfl)
@[simp] theorem State.withPorts_safe (x : Ports) : (s.withPorts x).safe = s.safe := (rfl)
@[simp] theorem State.withPorts_rings (x : Ports) : (s.withPorts x).rings = s.rings := (rfl)
@[simp] theorem State.withPorts_link (x : Ports) : (s.withPorts x).link = s.link := (rfl)
@[simp] theorem State.withPorts_sht (x : Ports) : (s.withPorts x).sht = s.sht := (rfl)
@[simp] theorem State.withPorts_rdo (x : Ports) : (s.withPorts x).rdo = s.rdo := (rfl)
@[simp] theorem State.withPorts_pipe (x : Ports) : (s.withPorts x).pipe = s.pipe := (rfl)
@[simp] theorem State.withPorts_wins (x : Ports) : (s.withPorts x).wins = s.wins := (rfl)
@[simp] theorem State.withPorts_arc (x : Ports) : (s.withPorts x).arc = s.arc := (rfl)
@[simp] theorem State.withPorts_npc (x : Ports) : (s.withPorts x).npc = s.npc := (rfl)
@[simp] theorem State.withPorts_hk (x : Ports) : (s.withPorts x).hk = s.hk := (rfl)
@[simp] theorem State.withPorts_pio (x : Ports) : (s.withPorts x).pio = s.pio := (rfl)
@[simp] theorem State.withPorts_arcadeMem (x : Ports) : (s.withPorts x).arcadeMem = s.arcadeMem := (rfl)
@[simp] theorem State.withPorts_tensorMem (x : Ports) : (s.withPorts x).tensorMem = s.tensorMem := (rfl)
@[simp] theorem State.withPorts_pending (x : Ports) : (s.withPorts x).pending = s.pending := (rfl)

/-! ### State.withPwr -/

@[simp] theorem State.withPwr_cycle (x : Power) : (s.withPwr x).cycle = s.cycle := (rfl)
@[simp] theorem State.withPwr_fresh (x : Power) : (s.withPwr x).fresh = s.fresh := (rfl)
@[simp] theorem State.withPwr_regs (x : Power) : (s.withPwr x).regs = s.regs := (rfl)
@[simp] theorem State.withPwr_live (x : Power) : (s.withPwr x).live = s.live := (rfl)
@[simp] theorem State.withPwr_heldOld (x : Power) : (s.withPwr x).heldOld = s.heldOld := (rfl)
@[simp] theorem State.withPwr_freshBits (x : Power) : (s.withPwr x).freshBits = s.freshBits := (rfl)
@[simp] theorem State.withPwr_supply (x : Power) : (s.withPwr x).supply = s.supply := (rfl)
@[simp] theorem State.withPwr_clk (x : Power) : (s.withPwr x).clk = s.clk := (rfl)
@[simp] theorem State.withPwr_cfg (x : Power) : (s.withPwr x).cfg = s.cfg := (rfl)
@[simp] theorem State.withPwr_boot (x : Power) : (s.withPwr x).boot = s.boot := (rfl)
@[simp] theorem State.withPwr_nvm (x : Power) : (s.withPwr x).nvm = s.nvm := (rfl)
@[simp] theorem State.withPwr_ports (x : Power) : (s.withPwr x).ports = s.ports := (rfl)
@[simp] theorem State.withPwr_pwr (x : Power) : (s.withPwr x).pwr = x := (rfl)
@[simp] theorem State.withPwr_evf (x : Power) : (s.withPwr x).evf = s.evf := (rfl)
@[simp] theorem State.withPwr_time (x : Power) : (s.withPwr x).time = s.time := (rfl)
@[simp] theorem State.withPwr_cnt (x : Power) : (s.withPwr x).cnt = s.cnt := (rfl)
@[simp] theorem State.withPwr_safe (x : Power) : (s.withPwr x).safe = s.safe := (rfl)
@[simp] theorem State.withPwr_rings (x : Power) : (s.withPwr x).rings = s.rings := (rfl)
@[simp] theorem State.withPwr_link (x : Power) : (s.withPwr x).link = s.link := (rfl)
@[simp] theorem State.withPwr_sht (x : Power) : (s.withPwr x).sht = s.sht := (rfl)
@[simp] theorem State.withPwr_rdo (x : Power) : (s.withPwr x).rdo = s.rdo := (rfl)
@[simp] theorem State.withPwr_pipe (x : Power) : (s.withPwr x).pipe = s.pipe := (rfl)
@[simp] theorem State.withPwr_wins (x : Power) : (s.withPwr x).wins = s.wins := (rfl)
@[simp] theorem State.withPwr_arc (x : Power) : (s.withPwr x).arc = s.arc := (rfl)
@[simp] theorem State.withPwr_npc (x : Power) : (s.withPwr x).npc = s.npc := (rfl)
@[simp] theorem State.withPwr_hk (x : Power) : (s.withPwr x).hk = s.hk := (rfl)
@[simp] theorem State.withPwr_pio (x : Power) : (s.withPwr x).pio = s.pio := (rfl)
@[simp] theorem State.withPwr_arcadeMem (x : Power) : (s.withPwr x).arcadeMem = s.arcadeMem := (rfl)
@[simp] theorem State.withPwr_tensorMem (x : Power) : (s.withPwr x).tensorMem = s.tensorMem := (rfl)
@[simp] theorem State.withPwr_pending (x : Power) : (s.withPwr x).pending = s.pending := (rfl)

/-! ### State.withEvf -/

@[simp] theorem State.withEvf_cycle (x : Evf) : (s.withEvf x).cycle = s.cycle := (rfl)
@[simp] theorem State.withEvf_fresh (x : Evf) : (s.withEvf x).fresh = s.fresh := (rfl)
@[simp] theorem State.withEvf_regs (x : Evf) : (s.withEvf x).regs = s.regs := (rfl)
@[simp] theorem State.withEvf_live (x : Evf) : (s.withEvf x).live = s.live := (rfl)
@[simp] theorem State.withEvf_heldOld (x : Evf) : (s.withEvf x).heldOld = s.heldOld := (rfl)
@[simp] theorem State.withEvf_freshBits (x : Evf) : (s.withEvf x).freshBits = s.freshBits := (rfl)
@[simp] theorem State.withEvf_supply (x : Evf) : (s.withEvf x).supply = s.supply := (rfl)
@[simp] theorem State.withEvf_clk (x : Evf) : (s.withEvf x).clk = s.clk := (rfl)
@[simp] theorem State.withEvf_cfg (x : Evf) : (s.withEvf x).cfg = s.cfg := (rfl)
@[simp] theorem State.withEvf_boot (x : Evf) : (s.withEvf x).boot = s.boot := (rfl)
@[simp] theorem State.withEvf_nvm (x : Evf) : (s.withEvf x).nvm = s.nvm := (rfl)
@[simp] theorem State.withEvf_ports (x : Evf) : (s.withEvf x).ports = s.ports := (rfl)
@[simp] theorem State.withEvf_pwr (x : Evf) : (s.withEvf x).pwr = s.pwr := (rfl)
@[simp] theorem State.withEvf_evf (x : Evf) : (s.withEvf x).evf = x := (rfl)
@[simp] theorem State.withEvf_time (x : Evf) : (s.withEvf x).time = s.time := (rfl)
@[simp] theorem State.withEvf_cnt (x : Evf) : (s.withEvf x).cnt = s.cnt := (rfl)
@[simp] theorem State.withEvf_safe (x : Evf) : (s.withEvf x).safe = s.safe := (rfl)
@[simp] theorem State.withEvf_rings (x : Evf) : (s.withEvf x).rings = s.rings := (rfl)
@[simp] theorem State.withEvf_link (x : Evf) : (s.withEvf x).link = s.link := (rfl)
@[simp] theorem State.withEvf_sht (x : Evf) : (s.withEvf x).sht = s.sht := (rfl)
@[simp] theorem State.withEvf_rdo (x : Evf) : (s.withEvf x).rdo = s.rdo := (rfl)
@[simp] theorem State.withEvf_pipe (x : Evf) : (s.withEvf x).pipe = s.pipe := (rfl)
@[simp] theorem State.withEvf_wins (x : Evf) : (s.withEvf x).wins = s.wins := (rfl)
@[simp] theorem State.withEvf_arc (x : Evf) : (s.withEvf x).arc = s.arc := (rfl)
@[simp] theorem State.withEvf_npc (x : Evf) : (s.withEvf x).npc = s.npc := (rfl)
@[simp] theorem State.withEvf_hk (x : Evf) : (s.withEvf x).hk = s.hk := (rfl)
@[simp] theorem State.withEvf_pio (x : Evf) : (s.withEvf x).pio = s.pio := (rfl)
@[simp] theorem State.withEvf_arcadeMem (x : Evf) : (s.withEvf x).arcadeMem = s.arcadeMem := (rfl)
@[simp] theorem State.withEvf_tensorMem (x : Evf) : (s.withEvf x).tensorMem = s.tensorMem := (rfl)
@[simp] theorem State.withEvf_pending (x : Evf) : (s.withEvf x).pending = s.pending := (rfl)

/-! ### State.withTime -/

@[simp] theorem State.withTime_cycle (x : TimeBase) : (s.withTime x).cycle = s.cycle := (rfl)
@[simp] theorem State.withTime_fresh (x : TimeBase) : (s.withTime x).fresh = s.fresh := (rfl)
@[simp] theorem State.withTime_regs (x : TimeBase) : (s.withTime x).regs = s.regs := (rfl)
@[simp] theorem State.withTime_live (x : TimeBase) : (s.withTime x).live = s.live := (rfl)
@[simp] theorem State.withTime_heldOld (x : TimeBase) : (s.withTime x).heldOld = s.heldOld := (rfl)
@[simp] theorem State.withTime_freshBits (x : TimeBase) : (s.withTime x).freshBits = s.freshBits := (rfl)
@[simp] theorem State.withTime_supply (x : TimeBase) : (s.withTime x).supply = s.supply := (rfl)
@[simp] theorem State.withTime_clk (x : TimeBase) : (s.withTime x).clk = s.clk := (rfl)
@[simp] theorem State.withTime_cfg (x : TimeBase) : (s.withTime x).cfg = s.cfg := (rfl)
@[simp] theorem State.withTime_boot (x : TimeBase) : (s.withTime x).boot = s.boot := (rfl)
@[simp] theorem State.withTime_nvm (x : TimeBase) : (s.withTime x).nvm = s.nvm := (rfl)
@[simp] theorem State.withTime_ports (x : TimeBase) : (s.withTime x).ports = s.ports := (rfl)
@[simp] theorem State.withTime_pwr (x : TimeBase) : (s.withTime x).pwr = s.pwr := (rfl)
@[simp] theorem State.withTime_evf (x : TimeBase) : (s.withTime x).evf = s.evf := (rfl)
@[simp] theorem State.withTime_time (x : TimeBase) : (s.withTime x).time = x := (rfl)
@[simp] theorem State.withTime_cnt (x : TimeBase) : (s.withTime x).cnt = s.cnt := (rfl)
@[simp] theorem State.withTime_safe (x : TimeBase) : (s.withTime x).safe = s.safe := (rfl)
@[simp] theorem State.withTime_rings (x : TimeBase) : (s.withTime x).rings = s.rings := (rfl)
@[simp] theorem State.withTime_link (x : TimeBase) : (s.withTime x).link = s.link := (rfl)
@[simp] theorem State.withTime_sht (x : TimeBase) : (s.withTime x).sht = s.sht := (rfl)
@[simp] theorem State.withTime_rdo (x : TimeBase) : (s.withTime x).rdo = s.rdo := (rfl)
@[simp] theorem State.withTime_pipe (x : TimeBase) : (s.withTime x).pipe = s.pipe := (rfl)
@[simp] theorem State.withTime_wins (x : TimeBase) : (s.withTime x).wins = s.wins := (rfl)
@[simp] theorem State.withTime_arc (x : TimeBase) : (s.withTime x).arc = s.arc := (rfl)
@[simp] theorem State.withTime_npc (x : TimeBase) : (s.withTime x).npc = s.npc := (rfl)
@[simp] theorem State.withTime_hk (x : TimeBase) : (s.withTime x).hk = s.hk := (rfl)
@[simp] theorem State.withTime_pio (x : TimeBase) : (s.withTime x).pio = s.pio := (rfl)
@[simp] theorem State.withTime_arcadeMem (x : TimeBase) : (s.withTime x).arcadeMem = s.arcadeMem := (rfl)
@[simp] theorem State.withTime_tensorMem (x : TimeBase) : (s.withTime x).tensorMem = s.tensorMem := (rfl)
@[simp] theorem State.withTime_pending (x : TimeBase) : (s.withTime x).pending = s.pending := (rfl)

/-! ### State.withCnt -/

@[simp] theorem State.withCnt_cycle (x : Counters) : (s.withCnt x).cycle = s.cycle := (rfl)
@[simp] theorem State.withCnt_fresh (x : Counters) : (s.withCnt x).fresh = s.fresh := (rfl)
@[simp] theorem State.withCnt_regs (x : Counters) : (s.withCnt x).regs = s.regs := (rfl)
@[simp] theorem State.withCnt_live (x : Counters) : (s.withCnt x).live = s.live := (rfl)
@[simp] theorem State.withCnt_heldOld (x : Counters) : (s.withCnt x).heldOld = s.heldOld := (rfl)
@[simp] theorem State.withCnt_freshBits (x : Counters) : (s.withCnt x).freshBits = s.freshBits := (rfl)
@[simp] theorem State.withCnt_supply (x : Counters) : (s.withCnt x).supply = s.supply := (rfl)
@[simp] theorem State.withCnt_clk (x : Counters) : (s.withCnt x).clk = s.clk := (rfl)
@[simp] theorem State.withCnt_cfg (x : Counters) : (s.withCnt x).cfg = s.cfg := (rfl)
@[simp] theorem State.withCnt_boot (x : Counters) : (s.withCnt x).boot = s.boot := (rfl)
@[simp] theorem State.withCnt_nvm (x : Counters) : (s.withCnt x).nvm = s.nvm := (rfl)
@[simp] theorem State.withCnt_ports (x : Counters) : (s.withCnt x).ports = s.ports := (rfl)
@[simp] theorem State.withCnt_pwr (x : Counters) : (s.withCnt x).pwr = s.pwr := (rfl)
@[simp] theorem State.withCnt_evf (x : Counters) : (s.withCnt x).evf = s.evf := (rfl)
@[simp] theorem State.withCnt_time (x : Counters) : (s.withCnt x).time = s.time := (rfl)
@[simp] theorem State.withCnt_cnt (x : Counters) : (s.withCnt x).cnt = x := (rfl)
@[simp] theorem State.withCnt_safe (x : Counters) : (s.withCnt x).safe = s.safe := (rfl)
@[simp] theorem State.withCnt_rings (x : Counters) : (s.withCnt x).rings = s.rings := (rfl)
@[simp] theorem State.withCnt_link (x : Counters) : (s.withCnt x).link = s.link := (rfl)
@[simp] theorem State.withCnt_sht (x : Counters) : (s.withCnt x).sht = s.sht := (rfl)
@[simp] theorem State.withCnt_rdo (x : Counters) : (s.withCnt x).rdo = s.rdo := (rfl)
@[simp] theorem State.withCnt_pipe (x : Counters) : (s.withCnt x).pipe = s.pipe := (rfl)
@[simp] theorem State.withCnt_wins (x : Counters) : (s.withCnt x).wins = s.wins := (rfl)
@[simp] theorem State.withCnt_arc (x : Counters) : (s.withCnt x).arc = s.arc := (rfl)
@[simp] theorem State.withCnt_npc (x : Counters) : (s.withCnt x).npc = s.npc := (rfl)
@[simp] theorem State.withCnt_hk (x : Counters) : (s.withCnt x).hk = s.hk := (rfl)
@[simp] theorem State.withCnt_pio (x : Counters) : (s.withCnt x).pio = s.pio := (rfl)
@[simp] theorem State.withCnt_arcadeMem (x : Counters) : (s.withCnt x).arcadeMem = s.arcadeMem := (rfl)
@[simp] theorem State.withCnt_tensorMem (x : Counters) : (s.withCnt x).tensorMem = s.tensorMem := (rfl)
@[simp] theorem State.withCnt_pending (x : Counters) : (s.withCnt x).pending = s.pending := (rfl)

/-! ### State.withSafe -/

@[simp] theorem State.withSafe_cycle (x : Safety) : (s.withSafe x).cycle = s.cycle := (rfl)
@[simp] theorem State.withSafe_fresh (x : Safety) : (s.withSafe x).fresh = s.fresh := (rfl)
@[simp] theorem State.withSafe_regs (x : Safety) : (s.withSafe x).regs = s.regs := (rfl)
@[simp] theorem State.withSafe_live (x : Safety) : (s.withSafe x).live = s.live := (rfl)
@[simp] theorem State.withSafe_heldOld (x : Safety) : (s.withSafe x).heldOld = s.heldOld := (rfl)
@[simp] theorem State.withSafe_freshBits (x : Safety) : (s.withSafe x).freshBits = s.freshBits := (rfl)
@[simp] theorem State.withSafe_supply (x : Safety) : (s.withSafe x).supply = s.supply := (rfl)
@[simp] theorem State.withSafe_clk (x : Safety) : (s.withSafe x).clk = s.clk := (rfl)
@[simp] theorem State.withSafe_cfg (x : Safety) : (s.withSafe x).cfg = s.cfg := (rfl)
@[simp] theorem State.withSafe_boot (x : Safety) : (s.withSafe x).boot = s.boot := (rfl)
@[simp] theorem State.withSafe_nvm (x : Safety) : (s.withSafe x).nvm = s.nvm := (rfl)
@[simp] theorem State.withSafe_ports (x : Safety) : (s.withSafe x).ports = s.ports := (rfl)
@[simp] theorem State.withSafe_pwr (x : Safety) : (s.withSafe x).pwr = s.pwr := (rfl)
@[simp] theorem State.withSafe_evf (x : Safety) : (s.withSafe x).evf = s.evf := (rfl)
@[simp] theorem State.withSafe_time (x : Safety) : (s.withSafe x).time = s.time := (rfl)
@[simp] theorem State.withSafe_cnt (x : Safety) : (s.withSafe x).cnt = s.cnt := (rfl)
@[simp] theorem State.withSafe_safe (x : Safety) : (s.withSafe x).safe = x := (rfl)
@[simp] theorem State.withSafe_rings (x : Safety) : (s.withSafe x).rings = s.rings := (rfl)
@[simp] theorem State.withSafe_link (x : Safety) : (s.withSafe x).link = s.link := (rfl)
@[simp] theorem State.withSafe_sht (x : Safety) : (s.withSafe x).sht = s.sht := (rfl)
@[simp] theorem State.withSafe_rdo (x : Safety) : (s.withSafe x).rdo = s.rdo := (rfl)
@[simp] theorem State.withSafe_pipe (x : Safety) : (s.withSafe x).pipe = s.pipe := (rfl)
@[simp] theorem State.withSafe_wins (x : Safety) : (s.withSafe x).wins = s.wins := (rfl)
@[simp] theorem State.withSafe_arc (x : Safety) : (s.withSafe x).arc = s.arc := (rfl)
@[simp] theorem State.withSafe_npc (x : Safety) : (s.withSafe x).npc = s.npc := (rfl)
@[simp] theorem State.withSafe_hk (x : Safety) : (s.withSafe x).hk = s.hk := (rfl)
@[simp] theorem State.withSafe_pio (x : Safety) : (s.withSafe x).pio = s.pio := (rfl)
@[simp] theorem State.withSafe_arcadeMem (x : Safety) : (s.withSafe x).arcadeMem = s.arcadeMem := (rfl)
@[simp] theorem State.withSafe_tensorMem (x : Safety) : (s.withSafe x).tensorMem = s.tensorMem := (rfl)
@[simp] theorem State.withSafe_pending (x : Safety) : (s.withSafe x).pending = s.pending := (rfl)

/-! ### State.withRings -/

@[simp] theorem State.withRings_cycle (x : List (Nat × RingSt)) : (s.withRings x).cycle = s.cycle := (rfl)
@[simp] theorem State.withRings_fresh (x : List (Nat × RingSt)) : (s.withRings x).fresh = s.fresh := (rfl)
@[simp] theorem State.withRings_regs (x : List (Nat × RingSt)) : (s.withRings x).regs = s.regs := (rfl)
@[simp] theorem State.withRings_live (x : List (Nat × RingSt)) : (s.withRings x).live = s.live := (rfl)
@[simp] theorem State.withRings_heldOld (x : List (Nat × RingSt)) : (s.withRings x).heldOld = s.heldOld := (rfl)
@[simp] theorem State.withRings_freshBits (x : List (Nat × RingSt)) : (s.withRings x).freshBits = s.freshBits := (rfl)
@[simp] theorem State.withRings_supply (x : List (Nat × RingSt)) : (s.withRings x).supply = s.supply := (rfl)
@[simp] theorem State.withRings_clk (x : List (Nat × RingSt)) : (s.withRings x).clk = s.clk := (rfl)
@[simp] theorem State.withRings_cfg (x : List (Nat × RingSt)) : (s.withRings x).cfg = s.cfg := (rfl)
@[simp] theorem State.withRings_boot (x : List (Nat × RingSt)) : (s.withRings x).boot = s.boot := (rfl)
@[simp] theorem State.withRings_nvm (x : List (Nat × RingSt)) : (s.withRings x).nvm = s.nvm := (rfl)
@[simp] theorem State.withRings_ports (x : List (Nat × RingSt)) : (s.withRings x).ports = s.ports := (rfl)
@[simp] theorem State.withRings_pwr (x : List (Nat × RingSt)) : (s.withRings x).pwr = s.pwr := (rfl)
@[simp] theorem State.withRings_evf (x : List (Nat × RingSt)) : (s.withRings x).evf = s.evf := (rfl)
@[simp] theorem State.withRings_time (x : List (Nat × RingSt)) : (s.withRings x).time = s.time := (rfl)
@[simp] theorem State.withRings_cnt (x : List (Nat × RingSt)) : (s.withRings x).cnt = s.cnt := (rfl)
@[simp] theorem State.withRings_safe (x : List (Nat × RingSt)) : (s.withRings x).safe = s.safe := (rfl)
@[simp] theorem State.withRings_rings (x : List (Nat × RingSt)) : (s.withRings x).rings = x := (rfl)
@[simp] theorem State.withRings_link (x : List (Nat × RingSt)) : (s.withRings x).link = s.link := (rfl)
@[simp] theorem State.withRings_sht (x : List (Nat × RingSt)) : (s.withRings x).sht = s.sht := (rfl)
@[simp] theorem State.withRings_rdo (x : List (Nat × RingSt)) : (s.withRings x).rdo = s.rdo := (rfl)
@[simp] theorem State.withRings_pipe (x : List (Nat × RingSt)) : (s.withRings x).pipe = s.pipe := (rfl)
@[simp] theorem State.withRings_wins (x : List (Nat × RingSt)) : (s.withRings x).wins = s.wins := (rfl)
@[simp] theorem State.withRings_arc (x : List (Nat × RingSt)) : (s.withRings x).arc = s.arc := (rfl)
@[simp] theorem State.withRings_npc (x : List (Nat × RingSt)) : (s.withRings x).npc = s.npc := (rfl)
@[simp] theorem State.withRings_hk (x : List (Nat × RingSt)) : (s.withRings x).hk = s.hk := (rfl)
@[simp] theorem State.withRings_pio (x : List (Nat × RingSt)) : (s.withRings x).pio = s.pio := (rfl)
@[simp] theorem State.withRings_arcadeMem (x : List (Nat × RingSt)) : (s.withRings x).arcadeMem = s.arcadeMem := (rfl)
@[simp] theorem State.withRings_tensorMem (x : List (Nat × RingSt)) : (s.withRings x).tensorMem = s.tensorMem := (rfl)
@[simp] theorem State.withRings_pending (x : List (Nat × RingSt)) : (s.withRings x).pending = s.pending := (rfl)

/-! ### State.withLink -/

@[simp] theorem State.withLink_cycle (x : LinkSt) : (s.withLink x).cycle = s.cycle := (rfl)
@[simp] theorem State.withLink_fresh (x : LinkSt) : (s.withLink x).fresh = s.fresh := (rfl)
@[simp] theorem State.withLink_regs (x : LinkSt) : (s.withLink x).regs = s.regs := (rfl)
@[simp] theorem State.withLink_live (x : LinkSt) : (s.withLink x).live = s.live := (rfl)
@[simp] theorem State.withLink_heldOld (x : LinkSt) : (s.withLink x).heldOld = s.heldOld := (rfl)
@[simp] theorem State.withLink_freshBits (x : LinkSt) : (s.withLink x).freshBits = s.freshBits := (rfl)
@[simp] theorem State.withLink_supply (x : LinkSt) : (s.withLink x).supply = s.supply := (rfl)
@[simp] theorem State.withLink_clk (x : LinkSt) : (s.withLink x).clk = s.clk := (rfl)
@[simp] theorem State.withLink_cfg (x : LinkSt) : (s.withLink x).cfg = s.cfg := (rfl)
@[simp] theorem State.withLink_boot (x : LinkSt) : (s.withLink x).boot = s.boot := (rfl)
@[simp] theorem State.withLink_nvm (x : LinkSt) : (s.withLink x).nvm = s.nvm := (rfl)
@[simp] theorem State.withLink_ports (x : LinkSt) : (s.withLink x).ports = s.ports := (rfl)
@[simp] theorem State.withLink_pwr (x : LinkSt) : (s.withLink x).pwr = s.pwr := (rfl)
@[simp] theorem State.withLink_evf (x : LinkSt) : (s.withLink x).evf = s.evf := (rfl)
@[simp] theorem State.withLink_time (x : LinkSt) : (s.withLink x).time = s.time := (rfl)
@[simp] theorem State.withLink_cnt (x : LinkSt) : (s.withLink x).cnt = s.cnt := (rfl)
@[simp] theorem State.withLink_safe (x : LinkSt) : (s.withLink x).safe = s.safe := (rfl)
@[simp] theorem State.withLink_rings (x : LinkSt) : (s.withLink x).rings = s.rings := (rfl)
@[simp] theorem State.withLink_link (x : LinkSt) : (s.withLink x).link = x := (rfl)
@[simp] theorem State.withLink_sht (x : LinkSt) : (s.withLink x).sht = s.sht := (rfl)
@[simp] theorem State.withLink_rdo (x : LinkSt) : (s.withLink x).rdo = s.rdo := (rfl)
@[simp] theorem State.withLink_pipe (x : LinkSt) : (s.withLink x).pipe = s.pipe := (rfl)
@[simp] theorem State.withLink_wins (x : LinkSt) : (s.withLink x).wins = s.wins := (rfl)
@[simp] theorem State.withLink_arc (x : LinkSt) : (s.withLink x).arc = s.arc := (rfl)
@[simp] theorem State.withLink_npc (x : LinkSt) : (s.withLink x).npc = s.npc := (rfl)
@[simp] theorem State.withLink_hk (x : LinkSt) : (s.withLink x).hk = s.hk := (rfl)
@[simp] theorem State.withLink_pio (x : LinkSt) : (s.withLink x).pio = s.pio := (rfl)
@[simp] theorem State.withLink_arcadeMem (x : LinkSt) : (s.withLink x).arcadeMem = s.arcadeMem := (rfl)
@[simp] theorem State.withLink_tensorMem (x : LinkSt) : (s.withLink x).tensorMem = s.tensorMem := (rfl)
@[simp] theorem State.withLink_pending (x : LinkSt) : (s.withLink x).pending = s.pending := (rfl)

/-! ### State.withSht -/

@[simp] theorem State.withSht_cycle (x : Shutter) : (s.withSht x).cycle = s.cycle := (rfl)
@[simp] theorem State.withSht_fresh (x : Shutter) : (s.withSht x).fresh = s.fresh := (rfl)
@[simp] theorem State.withSht_regs (x : Shutter) : (s.withSht x).regs = s.regs := (rfl)
@[simp] theorem State.withSht_live (x : Shutter) : (s.withSht x).live = s.live := (rfl)
@[simp] theorem State.withSht_heldOld (x : Shutter) : (s.withSht x).heldOld = s.heldOld := (rfl)
@[simp] theorem State.withSht_freshBits (x : Shutter) : (s.withSht x).freshBits = s.freshBits := (rfl)
@[simp] theorem State.withSht_supply (x : Shutter) : (s.withSht x).supply = s.supply := (rfl)
@[simp] theorem State.withSht_clk (x : Shutter) : (s.withSht x).clk = s.clk := (rfl)
@[simp] theorem State.withSht_cfg (x : Shutter) : (s.withSht x).cfg = s.cfg := (rfl)
@[simp] theorem State.withSht_boot (x : Shutter) : (s.withSht x).boot = s.boot := (rfl)
@[simp] theorem State.withSht_nvm (x : Shutter) : (s.withSht x).nvm = s.nvm := (rfl)
@[simp] theorem State.withSht_ports (x : Shutter) : (s.withSht x).ports = s.ports := (rfl)
@[simp] theorem State.withSht_pwr (x : Shutter) : (s.withSht x).pwr = s.pwr := (rfl)
@[simp] theorem State.withSht_evf (x : Shutter) : (s.withSht x).evf = s.evf := (rfl)
@[simp] theorem State.withSht_time (x : Shutter) : (s.withSht x).time = s.time := (rfl)
@[simp] theorem State.withSht_cnt (x : Shutter) : (s.withSht x).cnt = s.cnt := (rfl)
@[simp] theorem State.withSht_safe (x : Shutter) : (s.withSht x).safe = s.safe := (rfl)
@[simp] theorem State.withSht_rings (x : Shutter) : (s.withSht x).rings = s.rings := (rfl)
@[simp] theorem State.withSht_link (x : Shutter) : (s.withSht x).link = s.link := (rfl)
@[simp] theorem State.withSht_sht (x : Shutter) : (s.withSht x).sht = x := (rfl)
@[simp] theorem State.withSht_rdo (x : Shutter) : (s.withSht x).rdo = s.rdo := (rfl)
@[simp] theorem State.withSht_pipe (x : Shutter) : (s.withSht x).pipe = s.pipe := (rfl)
@[simp] theorem State.withSht_wins (x : Shutter) : (s.withSht x).wins = s.wins := (rfl)
@[simp] theorem State.withSht_arc (x : Shutter) : (s.withSht x).arc = s.arc := (rfl)
@[simp] theorem State.withSht_npc (x : Shutter) : (s.withSht x).npc = s.npc := (rfl)
@[simp] theorem State.withSht_hk (x : Shutter) : (s.withSht x).hk = s.hk := (rfl)
@[simp] theorem State.withSht_pio (x : Shutter) : (s.withSht x).pio = s.pio := (rfl)
@[simp] theorem State.withSht_arcadeMem (x : Shutter) : (s.withSht x).arcadeMem = s.arcadeMem := (rfl)
@[simp] theorem State.withSht_tensorMem (x : Shutter) : (s.withSht x).tensorMem = s.tensorMem := (rfl)
@[simp] theorem State.withSht_pending (x : Shutter) : (s.withSht x).pending = s.pending := (rfl)

/-! ### State.withRdo -/

@[simp] theorem State.withRdo_cycle (x : Readout) : (s.withRdo x).cycle = s.cycle := (rfl)
@[simp] theorem State.withRdo_fresh (x : Readout) : (s.withRdo x).fresh = s.fresh := (rfl)
@[simp] theorem State.withRdo_regs (x : Readout) : (s.withRdo x).regs = s.regs := (rfl)
@[simp] theorem State.withRdo_live (x : Readout) : (s.withRdo x).live = s.live := (rfl)
@[simp] theorem State.withRdo_heldOld (x : Readout) : (s.withRdo x).heldOld = s.heldOld := (rfl)
@[simp] theorem State.withRdo_freshBits (x : Readout) : (s.withRdo x).freshBits = s.freshBits := (rfl)
@[simp] theorem State.withRdo_supply (x : Readout) : (s.withRdo x).supply = s.supply := (rfl)
@[simp] theorem State.withRdo_clk (x : Readout) : (s.withRdo x).clk = s.clk := (rfl)
@[simp] theorem State.withRdo_cfg (x : Readout) : (s.withRdo x).cfg = s.cfg := (rfl)
@[simp] theorem State.withRdo_boot (x : Readout) : (s.withRdo x).boot = s.boot := (rfl)
@[simp] theorem State.withRdo_nvm (x : Readout) : (s.withRdo x).nvm = s.nvm := (rfl)
@[simp] theorem State.withRdo_ports (x : Readout) : (s.withRdo x).ports = s.ports := (rfl)
@[simp] theorem State.withRdo_pwr (x : Readout) : (s.withRdo x).pwr = s.pwr := (rfl)
@[simp] theorem State.withRdo_evf (x : Readout) : (s.withRdo x).evf = s.evf := (rfl)
@[simp] theorem State.withRdo_time (x : Readout) : (s.withRdo x).time = s.time := (rfl)
@[simp] theorem State.withRdo_cnt (x : Readout) : (s.withRdo x).cnt = s.cnt := (rfl)
@[simp] theorem State.withRdo_safe (x : Readout) : (s.withRdo x).safe = s.safe := (rfl)
@[simp] theorem State.withRdo_rings (x : Readout) : (s.withRdo x).rings = s.rings := (rfl)
@[simp] theorem State.withRdo_link (x : Readout) : (s.withRdo x).link = s.link := (rfl)
@[simp] theorem State.withRdo_sht (x : Readout) : (s.withRdo x).sht = s.sht := (rfl)
@[simp] theorem State.withRdo_rdo (x : Readout) : (s.withRdo x).rdo = x := (rfl)
@[simp] theorem State.withRdo_pipe (x : Readout) : (s.withRdo x).pipe = s.pipe := (rfl)
@[simp] theorem State.withRdo_wins (x : Readout) : (s.withRdo x).wins = s.wins := (rfl)
@[simp] theorem State.withRdo_arc (x : Readout) : (s.withRdo x).arc = s.arc := (rfl)
@[simp] theorem State.withRdo_npc (x : Readout) : (s.withRdo x).npc = s.npc := (rfl)
@[simp] theorem State.withRdo_hk (x : Readout) : (s.withRdo x).hk = s.hk := (rfl)
@[simp] theorem State.withRdo_pio (x : Readout) : (s.withRdo x).pio = s.pio := (rfl)
@[simp] theorem State.withRdo_arcadeMem (x : Readout) : (s.withRdo x).arcadeMem = s.arcadeMem := (rfl)
@[simp] theorem State.withRdo_tensorMem (x : Readout) : (s.withRdo x).tensorMem = s.tensorMem := (rfl)
@[simp] theorem State.withRdo_pending (x : Readout) : (s.withRdo x).pending = s.pending := (rfl)

/-! ### State.withPipe -/

@[simp] theorem State.withPipe_cycle (x : Pipe) : (s.withPipe x).cycle = s.cycle := (rfl)
@[simp] theorem State.withPipe_fresh (x : Pipe) : (s.withPipe x).fresh = s.fresh := (rfl)
@[simp] theorem State.withPipe_regs (x : Pipe) : (s.withPipe x).regs = s.regs := (rfl)
@[simp] theorem State.withPipe_live (x : Pipe) : (s.withPipe x).live = s.live := (rfl)
@[simp] theorem State.withPipe_heldOld (x : Pipe) : (s.withPipe x).heldOld = s.heldOld := (rfl)
@[simp] theorem State.withPipe_freshBits (x : Pipe) : (s.withPipe x).freshBits = s.freshBits := (rfl)
@[simp] theorem State.withPipe_supply (x : Pipe) : (s.withPipe x).supply = s.supply := (rfl)
@[simp] theorem State.withPipe_clk (x : Pipe) : (s.withPipe x).clk = s.clk := (rfl)
@[simp] theorem State.withPipe_cfg (x : Pipe) : (s.withPipe x).cfg = s.cfg := (rfl)
@[simp] theorem State.withPipe_boot (x : Pipe) : (s.withPipe x).boot = s.boot := (rfl)
@[simp] theorem State.withPipe_nvm (x : Pipe) : (s.withPipe x).nvm = s.nvm := (rfl)
@[simp] theorem State.withPipe_ports (x : Pipe) : (s.withPipe x).ports = s.ports := (rfl)
@[simp] theorem State.withPipe_pwr (x : Pipe) : (s.withPipe x).pwr = s.pwr := (rfl)
@[simp] theorem State.withPipe_evf (x : Pipe) : (s.withPipe x).evf = s.evf := (rfl)
@[simp] theorem State.withPipe_time (x : Pipe) : (s.withPipe x).time = s.time := (rfl)
@[simp] theorem State.withPipe_cnt (x : Pipe) : (s.withPipe x).cnt = s.cnt := (rfl)
@[simp] theorem State.withPipe_safe (x : Pipe) : (s.withPipe x).safe = s.safe := (rfl)
@[simp] theorem State.withPipe_rings (x : Pipe) : (s.withPipe x).rings = s.rings := (rfl)
@[simp] theorem State.withPipe_link (x : Pipe) : (s.withPipe x).link = s.link := (rfl)
@[simp] theorem State.withPipe_sht (x : Pipe) : (s.withPipe x).sht = s.sht := (rfl)
@[simp] theorem State.withPipe_rdo (x : Pipe) : (s.withPipe x).rdo = s.rdo := (rfl)
@[simp] theorem State.withPipe_pipe (x : Pipe) : (s.withPipe x).pipe = x := (rfl)
@[simp] theorem State.withPipe_wins (x : Pipe) : (s.withPipe x).wins = s.wins := (rfl)
@[simp] theorem State.withPipe_arc (x : Pipe) : (s.withPipe x).arc = s.arc := (rfl)
@[simp] theorem State.withPipe_npc (x : Pipe) : (s.withPipe x).npc = s.npc := (rfl)
@[simp] theorem State.withPipe_hk (x : Pipe) : (s.withPipe x).hk = s.hk := (rfl)
@[simp] theorem State.withPipe_pio (x : Pipe) : (s.withPipe x).pio = s.pio := (rfl)
@[simp] theorem State.withPipe_arcadeMem (x : Pipe) : (s.withPipe x).arcadeMem = s.arcadeMem := (rfl)
@[simp] theorem State.withPipe_tensorMem (x : Pipe) : (s.withPipe x).tensorMem = s.tensorMem := (rfl)
@[simp] theorem State.withPipe_pending (x : Pipe) : (s.withPipe x).pending = s.pending := (rfl)

/-! ### State.withWins -/

@[simp] theorem State.withWins_cycle (x : List (Nat × WinFrame)) : (s.withWins x).cycle = s.cycle := (rfl)
@[simp] theorem State.withWins_fresh (x : List (Nat × WinFrame)) : (s.withWins x).fresh = s.fresh := (rfl)
@[simp] theorem State.withWins_regs (x : List (Nat × WinFrame)) : (s.withWins x).regs = s.regs := (rfl)
@[simp] theorem State.withWins_live (x : List (Nat × WinFrame)) : (s.withWins x).live = s.live := (rfl)
@[simp] theorem State.withWins_heldOld (x : List (Nat × WinFrame)) : (s.withWins x).heldOld = s.heldOld := (rfl)
@[simp] theorem State.withWins_freshBits (x : List (Nat × WinFrame)) : (s.withWins x).freshBits = s.freshBits := (rfl)
@[simp] theorem State.withWins_supply (x : List (Nat × WinFrame)) : (s.withWins x).supply = s.supply := (rfl)
@[simp] theorem State.withWins_clk (x : List (Nat × WinFrame)) : (s.withWins x).clk = s.clk := (rfl)
@[simp] theorem State.withWins_cfg (x : List (Nat × WinFrame)) : (s.withWins x).cfg = s.cfg := (rfl)
@[simp] theorem State.withWins_boot (x : List (Nat × WinFrame)) : (s.withWins x).boot = s.boot := (rfl)
@[simp] theorem State.withWins_nvm (x : List (Nat × WinFrame)) : (s.withWins x).nvm = s.nvm := (rfl)
@[simp] theorem State.withWins_ports (x : List (Nat × WinFrame)) : (s.withWins x).ports = s.ports := (rfl)
@[simp] theorem State.withWins_pwr (x : List (Nat × WinFrame)) : (s.withWins x).pwr = s.pwr := (rfl)
@[simp] theorem State.withWins_evf (x : List (Nat × WinFrame)) : (s.withWins x).evf = s.evf := (rfl)
@[simp] theorem State.withWins_time (x : List (Nat × WinFrame)) : (s.withWins x).time = s.time := (rfl)
@[simp] theorem State.withWins_cnt (x : List (Nat × WinFrame)) : (s.withWins x).cnt = s.cnt := (rfl)
@[simp] theorem State.withWins_safe (x : List (Nat × WinFrame)) : (s.withWins x).safe = s.safe := (rfl)
@[simp] theorem State.withWins_rings (x : List (Nat × WinFrame)) : (s.withWins x).rings = s.rings := (rfl)
@[simp] theorem State.withWins_link (x : List (Nat × WinFrame)) : (s.withWins x).link = s.link := (rfl)
@[simp] theorem State.withWins_sht (x : List (Nat × WinFrame)) : (s.withWins x).sht = s.sht := (rfl)
@[simp] theorem State.withWins_rdo (x : List (Nat × WinFrame)) : (s.withWins x).rdo = s.rdo := (rfl)
@[simp] theorem State.withWins_pipe (x : List (Nat × WinFrame)) : (s.withWins x).pipe = s.pipe := (rfl)
@[simp] theorem State.withWins_wins (x : List (Nat × WinFrame)) : (s.withWins x).wins = x := (rfl)
@[simp] theorem State.withWins_arc (x : List (Nat × WinFrame)) : (s.withWins x).arc = s.arc := (rfl)
@[simp] theorem State.withWins_npc (x : List (Nat × WinFrame)) : (s.withWins x).npc = s.npc := (rfl)
@[simp] theorem State.withWins_hk (x : List (Nat × WinFrame)) : (s.withWins x).hk = s.hk := (rfl)
@[simp] theorem State.withWins_pio (x : List (Nat × WinFrame)) : (s.withWins x).pio = s.pio := (rfl)
@[simp] theorem State.withWins_arcadeMem (x : List (Nat × WinFrame)) : (s.withWins x).arcadeMem = s.arcadeMem := (rfl)
@[simp] theorem State.withWins_tensorMem (x : List (Nat × WinFrame)) : (s.withWins x).tensorMem = s.tensorMem := (rfl)
@[simp] theorem State.withWins_pending (x : List (Nat × WinFrame)) : (s.withWins x).pending = s.pending := (rfl)

/-! ### State.withArc -/

@[simp] theorem State.withArc_cycle (x : Arcade) : (s.withArc x).cycle = s.cycle := (rfl)
@[simp] theorem State.withArc_fresh (x : Arcade) : (s.withArc x).fresh = s.fresh := (rfl)
@[simp] theorem State.withArc_regs (x : Arcade) : (s.withArc x).regs = s.regs := (rfl)
@[simp] theorem State.withArc_live (x : Arcade) : (s.withArc x).live = s.live := (rfl)
@[simp] theorem State.withArc_heldOld (x : Arcade) : (s.withArc x).heldOld = s.heldOld := (rfl)
@[simp] theorem State.withArc_freshBits (x : Arcade) : (s.withArc x).freshBits = s.freshBits := (rfl)
@[simp] theorem State.withArc_supply (x : Arcade) : (s.withArc x).supply = s.supply := (rfl)
@[simp] theorem State.withArc_clk (x : Arcade) : (s.withArc x).clk = s.clk := (rfl)
@[simp] theorem State.withArc_cfg (x : Arcade) : (s.withArc x).cfg = s.cfg := (rfl)
@[simp] theorem State.withArc_boot (x : Arcade) : (s.withArc x).boot = s.boot := (rfl)
@[simp] theorem State.withArc_nvm (x : Arcade) : (s.withArc x).nvm = s.nvm := (rfl)
@[simp] theorem State.withArc_ports (x : Arcade) : (s.withArc x).ports = s.ports := (rfl)
@[simp] theorem State.withArc_pwr (x : Arcade) : (s.withArc x).pwr = s.pwr := (rfl)
@[simp] theorem State.withArc_evf (x : Arcade) : (s.withArc x).evf = s.evf := (rfl)
@[simp] theorem State.withArc_time (x : Arcade) : (s.withArc x).time = s.time := (rfl)
@[simp] theorem State.withArc_cnt (x : Arcade) : (s.withArc x).cnt = s.cnt := (rfl)
@[simp] theorem State.withArc_safe (x : Arcade) : (s.withArc x).safe = s.safe := (rfl)
@[simp] theorem State.withArc_rings (x : Arcade) : (s.withArc x).rings = s.rings := (rfl)
@[simp] theorem State.withArc_link (x : Arcade) : (s.withArc x).link = s.link := (rfl)
@[simp] theorem State.withArc_sht (x : Arcade) : (s.withArc x).sht = s.sht := (rfl)
@[simp] theorem State.withArc_rdo (x : Arcade) : (s.withArc x).rdo = s.rdo := (rfl)
@[simp] theorem State.withArc_pipe (x : Arcade) : (s.withArc x).pipe = s.pipe := (rfl)
@[simp] theorem State.withArc_wins (x : Arcade) : (s.withArc x).wins = s.wins := (rfl)
@[simp] theorem State.withArc_arc (x : Arcade) : (s.withArc x).arc = x := (rfl)
@[simp] theorem State.withArc_npc (x : Arcade) : (s.withArc x).npc = s.npc := (rfl)
@[simp] theorem State.withArc_hk (x : Arcade) : (s.withArc x).hk = s.hk := (rfl)
@[simp] theorem State.withArc_pio (x : Arcade) : (s.withArc x).pio = s.pio := (rfl)
@[simp] theorem State.withArc_arcadeMem (x : Arcade) : (s.withArc x).arcadeMem = s.arcadeMem := (rfl)
@[simp] theorem State.withArc_tensorMem (x : Arcade) : (s.withArc x).tensorMem = s.tensorMem := (rfl)
@[simp] theorem State.withArc_pending (x : Arcade) : (s.withArc x).pending = s.pending := (rfl)

/-! ### State.withNpc -/

@[simp] theorem State.withNpc_cycle (x : Npc) : (s.withNpc x).cycle = s.cycle := (rfl)
@[simp] theorem State.withNpc_fresh (x : Npc) : (s.withNpc x).fresh = s.fresh := (rfl)
@[simp] theorem State.withNpc_regs (x : Npc) : (s.withNpc x).regs = s.regs := (rfl)
@[simp] theorem State.withNpc_live (x : Npc) : (s.withNpc x).live = s.live := (rfl)
@[simp] theorem State.withNpc_heldOld (x : Npc) : (s.withNpc x).heldOld = s.heldOld := (rfl)
@[simp] theorem State.withNpc_freshBits (x : Npc) : (s.withNpc x).freshBits = s.freshBits := (rfl)
@[simp] theorem State.withNpc_supply (x : Npc) : (s.withNpc x).supply = s.supply := (rfl)
@[simp] theorem State.withNpc_clk (x : Npc) : (s.withNpc x).clk = s.clk := (rfl)
@[simp] theorem State.withNpc_cfg (x : Npc) : (s.withNpc x).cfg = s.cfg := (rfl)
@[simp] theorem State.withNpc_boot (x : Npc) : (s.withNpc x).boot = s.boot := (rfl)
@[simp] theorem State.withNpc_nvm (x : Npc) : (s.withNpc x).nvm = s.nvm := (rfl)
@[simp] theorem State.withNpc_ports (x : Npc) : (s.withNpc x).ports = s.ports := (rfl)
@[simp] theorem State.withNpc_pwr (x : Npc) : (s.withNpc x).pwr = s.pwr := (rfl)
@[simp] theorem State.withNpc_evf (x : Npc) : (s.withNpc x).evf = s.evf := (rfl)
@[simp] theorem State.withNpc_time (x : Npc) : (s.withNpc x).time = s.time := (rfl)
@[simp] theorem State.withNpc_cnt (x : Npc) : (s.withNpc x).cnt = s.cnt := (rfl)
@[simp] theorem State.withNpc_safe (x : Npc) : (s.withNpc x).safe = s.safe := (rfl)
@[simp] theorem State.withNpc_rings (x : Npc) : (s.withNpc x).rings = s.rings := (rfl)
@[simp] theorem State.withNpc_link (x : Npc) : (s.withNpc x).link = s.link := (rfl)
@[simp] theorem State.withNpc_sht (x : Npc) : (s.withNpc x).sht = s.sht := (rfl)
@[simp] theorem State.withNpc_rdo (x : Npc) : (s.withNpc x).rdo = s.rdo := (rfl)
@[simp] theorem State.withNpc_pipe (x : Npc) : (s.withNpc x).pipe = s.pipe := (rfl)
@[simp] theorem State.withNpc_wins (x : Npc) : (s.withNpc x).wins = s.wins := (rfl)
@[simp] theorem State.withNpc_arc (x : Npc) : (s.withNpc x).arc = s.arc := (rfl)
@[simp] theorem State.withNpc_npc (x : Npc) : (s.withNpc x).npc = x := (rfl)
@[simp] theorem State.withNpc_hk (x : Npc) : (s.withNpc x).hk = s.hk := (rfl)
@[simp] theorem State.withNpc_pio (x : Npc) : (s.withNpc x).pio = s.pio := (rfl)
@[simp] theorem State.withNpc_arcadeMem (x : Npc) : (s.withNpc x).arcadeMem = s.arcadeMem := (rfl)
@[simp] theorem State.withNpc_tensorMem (x : Npc) : (s.withNpc x).tensorMem = s.tensorMem := (rfl)
@[simp] theorem State.withNpc_pending (x : Npc) : (s.withNpc x).pending = s.pending := (rfl)

/-! ### State.withHk -/

@[simp] theorem State.withHk_cycle (x : Hk) : (s.withHk x).cycle = s.cycle := (rfl)
@[simp] theorem State.withHk_fresh (x : Hk) : (s.withHk x).fresh = s.fresh := (rfl)
@[simp] theorem State.withHk_regs (x : Hk) : (s.withHk x).regs = s.regs := (rfl)
@[simp] theorem State.withHk_live (x : Hk) : (s.withHk x).live = s.live := (rfl)
@[simp] theorem State.withHk_heldOld (x : Hk) : (s.withHk x).heldOld = s.heldOld := (rfl)
@[simp] theorem State.withHk_freshBits (x : Hk) : (s.withHk x).freshBits = s.freshBits := (rfl)
@[simp] theorem State.withHk_supply (x : Hk) : (s.withHk x).supply = s.supply := (rfl)
@[simp] theorem State.withHk_clk (x : Hk) : (s.withHk x).clk = s.clk := (rfl)
@[simp] theorem State.withHk_cfg (x : Hk) : (s.withHk x).cfg = s.cfg := (rfl)
@[simp] theorem State.withHk_boot (x : Hk) : (s.withHk x).boot = s.boot := (rfl)
@[simp] theorem State.withHk_nvm (x : Hk) : (s.withHk x).nvm = s.nvm := (rfl)
@[simp] theorem State.withHk_ports (x : Hk) : (s.withHk x).ports = s.ports := (rfl)
@[simp] theorem State.withHk_pwr (x : Hk) : (s.withHk x).pwr = s.pwr := (rfl)
@[simp] theorem State.withHk_evf (x : Hk) : (s.withHk x).evf = s.evf := (rfl)
@[simp] theorem State.withHk_time (x : Hk) : (s.withHk x).time = s.time := (rfl)
@[simp] theorem State.withHk_cnt (x : Hk) : (s.withHk x).cnt = s.cnt := (rfl)
@[simp] theorem State.withHk_safe (x : Hk) : (s.withHk x).safe = s.safe := (rfl)
@[simp] theorem State.withHk_rings (x : Hk) : (s.withHk x).rings = s.rings := (rfl)
@[simp] theorem State.withHk_link (x : Hk) : (s.withHk x).link = s.link := (rfl)
@[simp] theorem State.withHk_sht (x : Hk) : (s.withHk x).sht = s.sht := (rfl)
@[simp] theorem State.withHk_rdo (x : Hk) : (s.withHk x).rdo = s.rdo := (rfl)
@[simp] theorem State.withHk_pipe (x : Hk) : (s.withHk x).pipe = s.pipe := (rfl)
@[simp] theorem State.withHk_wins (x : Hk) : (s.withHk x).wins = s.wins := (rfl)
@[simp] theorem State.withHk_arc (x : Hk) : (s.withHk x).arc = s.arc := (rfl)
@[simp] theorem State.withHk_npc (x : Hk) : (s.withHk x).npc = s.npc := (rfl)
@[simp] theorem State.withHk_hk (x : Hk) : (s.withHk x).hk = x := (rfl)
@[simp] theorem State.withHk_pio (x : Hk) : (s.withHk x).pio = s.pio := (rfl)
@[simp] theorem State.withHk_arcadeMem (x : Hk) : (s.withHk x).arcadeMem = s.arcadeMem := (rfl)
@[simp] theorem State.withHk_tensorMem (x : Hk) : (s.withHk x).tensorMem = s.tensorMem := (rfl)
@[simp] theorem State.withHk_pending (x : Hk) : (s.withHk x).pending = s.pending := (rfl)

/-! ### State.withPio -/

@[simp] theorem State.withPio_cycle (x : Pio) : (s.withPio x).cycle = s.cycle := (rfl)
@[simp] theorem State.withPio_fresh (x : Pio) : (s.withPio x).fresh = s.fresh := (rfl)
@[simp] theorem State.withPio_regs (x : Pio) : (s.withPio x).regs = s.regs := (rfl)
@[simp] theorem State.withPio_live (x : Pio) : (s.withPio x).live = s.live := (rfl)
@[simp] theorem State.withPio_heldOld (x : Pio) : (s.withPio x).heldOld = s.heldOld := (rfl)
@[simp] theorem State.withPio_freshBits (x : Pio) : (s.withPio x).freshBits = s.freshBits := (rfl)
@[simp] theorem State.withPio_supply (x : Pio) : (s.withPio x).supply = s.supply := (rfl)
@[simp] theorem State.withPio_clk (x : Pio) : (s.withPio x).clk = s.clk := (rfl)
@[simp] theorem State.withPio_cfg (x : Pio) : (s.withPio x).cfg = s.cfg := (rfl)
@[simp] theorem State.withPio_boot (x : Pio) : (s.withPio x).boot = s.boot := (rfl)
@[simp] theorem State.withPio_nvm (x : Pio) : (s.withPio x).nvm = s.nvm := (rfl)
@[simp] theorem State.withPio_ports (x : Pio) : (s.withPio x).ports = s.ports := (rfl)
@[simp] theorem State.withPio_pwr (x : Pio) : (s.withPio x).pwr = s.pwr := (rfl)
@[simp] theorem State.withPio_evf (x : Pio) : (s.withPio x).evf = s.evf := (rfl)
@[simp] theorem State.withPio_time (x : Pio) : (s.withPio x).time = s.time := (rfl)
@[simp] theorem State.withPio_cnt (x : Pio) : (s.withPio x).cnt = s.cnt := (rfl)
@[simp] theorem State.withPio_safe (x : Pio) : (s.withPio x).safe = s.safe := (rfl)
@[simp] theorem State.withPio_rings (x : Pio) : (s.withPio x).rings = s.rings := (rfl)
@[simp] theorem State.withPio_link (x : Pio) : (s.withPio x).link = s.link := (rfl)
@[simp] theorem State.withPio_sht (x : Pio) : (s.withPio x).sht = s.sht := (rfl)
@[simp] theorem State.withPio_rdo (x : Pio) : (s.withPio x).rdo = s.rdo := (rfl)
@[simp] theorem State.withPio_pipe (x : Pio) : (s.withPio x).pipe = s.pipe := (rfl)
@[simp] theorem State.withPio_wins (x : Pio) : (s.withPio x).wins = s.wins := (rfl)
@[simp] theorem State.withPio_arc (x : Pio) : (s.withPio x).arc = s.arc := (rfl)
@[simp] theorem State.withPio_npc (x : Pio) : (s.withPio x).npc = s.npc := (rfl)
@[simp] theorem State.withPio_hk (x : Pio) : (s.withPio x).hk = s.hk := (rfl)
@[simp] theorem State.withPio_pio (x : Pio) : (s.withPio x).pio = x := (rfl)
@[simp] theorem State.withPio_arcadeMem (x : Pio) : (s.withPio x).arcadeMem = s.arcadeMem := (rfl)
@[simp] theorem State.withPio_tensorMem (x : Pio) : (s.withPio x).tensorMem = s.tensorMem := (rfl)
@[simp] theorem State.withPio_pending (x : Pio) : (s.withPio x).pending = s.pending := (rfl)

/-! ### State.withArcadeMem -/

@[simp] theorem State.withArcadeMem_cycle (x : List Host.Cell) : (s.withArcadeMem x).cycle = s.cycle := (rfl)
@[simp] theorem State.withArcadeMem_fresh (x : List Host.Cell) : (s.withArcadeMem x).fresh = s.fresh := (rfl)
@[simp] theorem State.withArcadeMem_regs (x : List Host.Cell) : (s.withArcadeMem x).regs = s.regs := (rfl)
@[simp] theorem State.withArcadeMem_live (x : List Host.Cell) : (s.withArcadeMem x).live = s.live := (rfl)
@[simp] theorem State.withArcadeMem_heldOld (x : List Host.Cell) : (s.withArcadeMem x).heldOld = s.heldOld := (rfl)
@[simp] theorem State.withArcadeMem_freshBits (x : List Host.Cell) : (s.withArcadeMem x).freshBits = s.freshBits := (rfl)
@[simp] theorem State.withArcadeMem_supply (x : List Host.Cell) : (s.withArcadeMem x).supply = s.supply := (rfl)
@[simp] theorem State.withArcadeMem_clk (x : List Host.Cell) : (s.withArcadeMem x).clk = s.clk := (rfl)
@[simp] theorem State.withArcadeMem_cfg (x : List Host.Cell) : (s.withArcadeMem x).cfg = s.cfg := (rfl)
@[simp] theorem State.withArcadeMem_boot (x : List Host.Cell) : (s.withArcadeMem x).boot = s.boot := (rfl)
@[simp] theorem State.withArcadeMem_nvm (x : List Host.Cell) : (s.withArcadeMem x).nvm = s.nvm := (rfl)
@[simp] theorem State.withArcadeMem_ports (x : List Host.Cell) : (s.withArcadeMem x).ports = s.ports := (rfl)
@[simp] theorem State.withArcadeMem_pwr (x : List Host.Cell) : (s.withArcadeMem x).pwr = s.pwr := (rfl)
@[simp] theorem State.withArcadeMem_evf (x : List Host.Cell) : (s.withArcadeMem x).evf = s.evf := (rfl)
@[simp] theorem State.withArcadeMem_time (x : List Host.Cell) : (s.withArcadeMem x).time = s.time := (rfl)
@[simp] theorem State.withArcadeMem_cnt (x : List Host.Cell) : (s.withArcadeMem x).cnt = s.cnt := (rfl)
@[simp] theorem State.withArcadeMem_safe (x : List Host.Cell) : (s.withArcadeMem x).safe = s.safe := (rfl)
@[simp] theorem State.withArcadeMem_rings (x : List Host.Cell) : (s.withArcadeMem x).rings = s.rings := (rfl)
@[simp] theorem State.withArcadeMem_link (x : List Host.Cell) : (s.withArcadeMem x).link = s.link := (rfl)
@[simp] theorem State.withArcadeMem_sht (x : List Host.Cell) : (s.withArcadeMem x).sht = s.sht := (rfl)
@[simp] theorem State.withArcadeMem_rdo (x : List Host.Cell) : (s.withArcadeMem x).rdo = s.rdo := (rfl)
@[simp] theorem State.withArcadeMem_pipe (x : List Host.Cell) : (s.withArcadeMem x).pipe = s.pipe := (rfl)
@[simp] theorem State.withArcadeMem_wins (x : List Host.Cell) : (s.withArcadeMem x).wins = s.wins := (rfl)
@[simp] theorem State.withArcadeMem_arc (x : List Host.Cell) : (s.withArcadeMem x).arc = s.arc := (rfl)
@[simp] theorem State.withArcadeMem_npc (x : List Host.Cell) : (s.withArcadeMem x).npc = s.npc := (rfl)
@[simp] theorem State.withArcadeMem_hk (x : List Host.Cell) : (s.withArcadeMem x).hk = s.hk := (rfl)
@[simp] theorem State.withArcadeMem_pio (x : List Host.Cell) : (s.withArcadeMem x).pio = s.pio := (rfl)
@[simp] theorem State.withArcadeMem_arcadeMem (x : List Host.Cell) : (s.withArcadeMem x).arcadeMem = x := (rfl)
@[simp] theorem State.withArcadeMem_tensorMem (x : List Host.Cell) : (s.withArcadeMem x).tensorMem = s.tensorMem := (rfl)
@[simp] theorem State.withArcadeMem_pending (x : List Host.Cell) : (s.withArcadeMem x).pending = s.pending := (rfl)

/-! ### State.withTensorMem -/

@[simp] theorem State.withTensorMem_cycle (x : List Host.Cell) : (s.withTensorMem x).cycle = s.cycle := (rfl)
@[simp] theorem State.withTensorMem_fresh (x : List Host.Cell) : (s.withTensorMem x).fresh = s.fresh := (rfl)
@[simp] theorem State.withTensorMem_regs (x : List Host.Cell) : (s.withTensorMem x).regs = s.regs := (rfl)
@[simp] theorem State.withTensorMem_live (x : List Host.Cell) : (s.withTensorMem x).live = s.live := (rfl)
@[simp] theorem State.withTensorMem_heldOld (x : List Host.Cell) : (s.withTensorMem x).heldOld = s.heldOld := (rfl)
@[simp] theorem State.withTensorMem_freshBits (x : List Host.Cell) : (s.withTensorMem x).freshBits = s.freshBits := (rfl)
@[simp] theorem State.withTensorMem_supply (x : List Host.Cell) : (s.withTensorMem x).supply = s.supply := (rfl)
@[simp] theorem State.withTensorMem_clk (x : List Host.Cell) : (s.withTensorMem x).clk = s.clk := (rfl)
@[simp] theorem State.withTensorMem_cfg (x : List Host.Cell) : (s.withTensorMem x).cfg = s.cfg := (rfl)
@[simp] theorem State.withTensorMem_boot (x : List Host.Cell) : (s.withTensorMem x).boot = s.boot := (rfl)
@[simp] theorem State.withTensorMem_nvm (x : List Host.Cell) : (s.withTensorMem x).nvm = s.nvm := (rfl)
@[simp] theorem State.withTensorMem_ports (x : List Host.Cell) : (s.withTensorMem x).ports = s.ports := (rfl)
@[simp] theorem State.withTensorMem_pwr (x : List Host.Cell) : (s.withTensorMem x).pwr = s.pwr := (rfl)
@[simp] theorem State.withTensorMem_evf (x : List Host.Cell) : (s.withTensorMem x).evf = s.evf := (rfl)
@[simp] theorem State.withTensorMem_time (x : List Host.Cell) : (s.withTensorMem x).time = s.time := (rfl)
@[simp] theorem State.withTensorMem_cnt (x : List Host.Cell) : (s.withTensorMem x).cnt = s.cnt := (rfl)
@[simp] theorem State.withTensorMem_safe (x : List Host.Cell) : (s.withTensorMem x).safe = s.safe := (rfl)
@[simp] theorem State.withTensorMem_rings (x : List Host.Cell) : (s.withTensorMem x).rings = s.rings := (rfl)
@[simp] theorem State.withTensorMem_link (x : List Host.Cell) : (s.withTensorMem x).link = s.link := (rfl)
@[simp] theorem State.withTensorMem_sht (x : List Host.Cell) : (s.withTensorMem x).sht = s.sht := (rfl)
@[simp] theorem State.withTensorMem_rdo (x : List Host.Cell) : (s.withTensorMem x).rdo = s.rdo := (rfl)
@[simp] theorem State.withTensorMem_pipe (x : List Host.Cell) : (s.withTensorMem x).pipe = s.pipe := (rfl)
@[simp] theorem State.withTensorMem_wins (x : List Host.Cell) : (s.withTensorMem x).wins = s.wins := (rfl)
@[simp] theorem State.withTensorMem_arc (x : List Host.Cell) : (s.withTensorMem x).arc = s.arc := (rfl)
@[simp] theorem State.withTensorMem_npc (x : List Host.Cell) : (s.withTensorMem x).npc = s.npc := (rfl)
@[simp] theorem State.withTensorMem_hk (x : List Host.Cell) : (s.withTensorMem x).hk = s.hk := (rfl)
@[simp] theorem State.withTensorMem_pio (x : List Host.Cell) : (s.withTensorMem x).pio = s.pio := (rfl)
@[simp] theorem State.withTensorMem_arcadeMem (x : List Host.Cell) : (s.withTensorMem x).arcadeMem = s.arcadeMem := (rfl)
@[simp] theorem State.withTensorMem_tensorMem (x : List Host.Cell) : (s.withTensorMem x).tensorMem = x := (rfl)
@[simp] theorem State.withTensorMem_pending (x : List Host.Cell) : (s.withTensorMem x).pending = s.pending := (rfl)

/-! ### State.setReg -/

@[simp] theorem State.setReg_cycle (a : Nat) (v : Word) : (s.setReg a v).cycle = s.cycle := (rfl)
@[simp] theorem State.setReg_fresh (a : Nat) (v : Word) : (s.setReg a v).fresh = s.fresh := (rfl)
@[simp] theorem State.setReg_live (a : Nat) (v : Word) : (s.setReg a v).live = s.live := (rfl)
@[simp] theorem State.setReg_heldOld (a : Nat) (v : Word) : (s.setReg a v).heldOld = s.heldOld := (rfl)
@[simp] theorem State.setReg_freshBits (a : Nat) (v : Word) : (s.setReg a v).freshBits = s.freshBits := (rfl)
@[simp] theorem State.setReg_supply (a : Nat) (v : Word) : (s.setReg a v).supply = s.supply := (rfl)
@[simp] theorem State.setReg_clk (a : Nat) (v : Word) : (s.setReg a v).clk = s.clk := (rfl)
@[simp] theorem State.setReg_cfg (a : Nat) (v : Word) : (s.setReg a v).cfg = s.cfg := (rfl)
@[simp] theorem State.setReg_boot (a : Nat) (v : Word) : (s.setReg a v).boot = s.boot := (rfl)
@[simp] theorem State.setReg_nvm (a : Nat) (v : Word) : (s.setReg a v).nvm = s.nvm := (rfl)
@[simp] theorem State.setReg_ports (a : Nat) (v : Word) : (s.setReg a v).ports = s.ports := (rfl)
@[simp] theorem State.setReg_pwr (a : Nat) (v : Word) : (s.setReg a v).pwr = s.pwr := (rfl)
@[simp] theorem State.setReg_evf (a : Nat) (v : Word) : (s.setReg a v).evf = s.evf := (rfl)
@[simp] theorem State.setReg_time (a : Nat) (v : Word) : (s.setReg a v).time = s.time := (rfl)
@[simp] theorem State.setReg_cnt (a : Nat) (v : Word) : (s.setReg a v).cnt = s.cnt := (rfl)
@[simp] theorem State.setReg_safe (a : Nat) (v : Word) : (s.setReg a v).safe = s.safe := (rfl)
@[simp] theorem State.setReg_rings (a : Nat) (v : Word) : (s.setReg a v).rings = s.rings := (rfl)
@[simp] theorem State.setReg_link (a : Nat) (v : Word) : (s.setReg a v).link = s.link := (rfl)
@[simp] theorem State.setReg_sht (a : Nat) (v : Word) : (s.setReg a v).sht = s.sht := (rfl)
@[simp] theorem State.setReg_rdo (a : Nat) (v : Word) : (s.setReg a v).rdo = s.rdo := (rfl)
@[simp] theorem State.setReg_pipe (a : Nat) (v : Word) : (s.setReg a v).pipe = s.pipe := (rfl)
@[simp] theorem State.setReg_wins (a : Nat) (v : Word) : (s.setReg a v).wins = s.wins := (rfl)
@[simp] theorem State.setReg_arc (a : Nat) (v : Word) : (s.setReg a v).arc = s.arc := (rfl)
@[simp] theorem State.setReg_npc (a : Nat) (v : Word) : (s.setReg a v).npc = s.npc := (rfl)
@[simp] theorem State.setReg_hk (a : Nat) (v : Word) : (s.setReg a v).hk = s.hk := (rfl)
@[simp] theorem State.setReg_pio (a : Nat) (v : Word) : (s.setReg a v).pio = s.pio := (rfl)
@[simp] theorem State.setReg_arcadeMem (a : Nat) (v : Word) : (s.setReg a v).arcadeMem = s.arcadeMem := (rfl)
@[simp] theorem State.setReg_tensorMem (a : Nat) (v : Word) : (s.setReg a v).tensorMem = s.tensorMem := (rfl)
@[simp] theorem State.setReg_pending (a : Nat) (v : Word) : (s.setReg a v).pending = s.pending := (rfl)

/-! ### State.setLive -/

@[simp] theorem State.setLive_cycle (a : Nat) (v : Word) : (s.setLive a v).cycle = s.cycle := (rfl)
@[simp] theorem State.setLive_fresh (a : Nat) (v : Word) : (s.setLive a v).fresh = s.fresh := (rfl)
@[simp] theorem State.setLive_regs (a : Nat) (v : Word) : (s.setLive a v).regs = s.regs := (rfl)
@[simp] theorem State.setLive_heldOld (a : Nat) (v : Word) : (s.setLive a v).heldOld = s.heldOld := (rfl)
@[simp] theorem State.setLive_freshBits (a : Nat) (v : Word) : (s.setLive a v).freshBits = s.freshBits := (rfl)
@[simp] theorem State.setLive_supply (a : Nat) (v : Word) : (s.setLive a v).supply = s.supply := (rfl)
@[simp] theorem State.setLive_clk (a : Nat) (v : Word) : (s.setLive a v).clk = s.clk := (rfl)
@[simp] theorem State.setLive_cfg (a : Nat) (v : Word) : (s.setLive a v).cfg = s.cfg := (rfl)
@[simp] theorem State.setLive_boot (a : Nat) (v : Word) : (s.setLive a v).boot = s.boot := (rfl)
@[simp] theorem State.setLive_nvm (a : Nat) (v : Word) : (s.setLive a v).nvm = s.nvm := (rfl)
@[simp] theorem State.setLive_ports (a : Nat) (v : Word) : (s.setLive a v).ports = s.ports := (rfl)
@[simp] theorem State.setLive_pwr (a : Nat) (v : Word) : (s.setLive a v).pwr = s.pwr := (rfl)
@[simp] theorem State.setLive_evf (a : Nat) (v : Word) : (s.setLive a v).evf = s.evf := (rfl)
@[simp] theorem State.setLive_time (a : Nat) (v : Word) : (s.setLive a v).time = s.time := (rfl)
@[simp] theorem State.setLive_cnt (a : Nat) (v : Word) : (s.setLive a v).cnt = s.cnt := (rfl)
@[simp] theorem State.setLive_safe (a : Nat) (v : Word) : (s.setLive a v).safe = s.safe := (rfl)
@[simp] theorem State.setLive_rings (a : Nat) (v : Word) : (s.setLive a v).rings = s.rings := (rfl)
@[simp] theorem State.setLive_link (a : Nat) (v : Word) : (s.setLive a v).link = s.link := (rfl)
@[simp] theorem State.setLive_sht (a : Nat) (v : Word) : (s.setLive a v).sht = s.sht := (rfl)
@[simp] theorem State.setLive_rdo (a : Nat) (v : Word) : (s.setLive a v).rdo = s.rdo := (rfl)
@[simp] theorem State.setLive_pipe (a : Nat) (v : Word) : (s.setLive a v).pipe = s.pipe := (rfl)
@[simp] theorem State.setLive_wins (a : Nat) (v : Word) : (s.setLive a v).wins = s.wins := (rfl)
@[simp] theorem State.setLive_arc (a : Nat) (v : Word) : (s.setLive a v).arc = s.arc := (rfl)
@[simp] theorem State.setLive_npc (a : Nat) (v : Word) : (s.setLive a v).npc = s.npc := (rfl)
@[simp] theorem State.setLive_hk (a : Nat) (v : Word) : (s.setLive a v).hk = s.hk := (rfl)
@[simp] theorem State.setLive_pio (a : Nat) (v : Word) : (s.setLive a v).pio = s.pio := (rfl)
@[simp] theorem State.setLive_arcadeMem (a : Nat) (v : Word) : (s.setLive a v).arcadeMem = s.arcadeMem := (rfl)
@[simp] theorem State.setLive_tensorMem (a : Nat) (v : Word) : (s.setLive a v).tensorMem = s.tensorMem := (rfl)
@[simp] theorem State.setLive_pending (a : Nat) (v : Word) : (s.setLive a v).pending = s.pending := (rfl)

/-! ### State.put -/

@[simp] theorem State.put_cycle (f : Fld) (v : Nat) : (s.put f v).cycle = s.cycle := (rfl)
@[simp] theorem State.put_fresh (f : Fld) (v : Nat) : (s.put f v).fresh = s.fresh := (rfl)
@[simp] theorem State.put_live (f : Fld) (v : Nat) : (s.put f v).live = s.live := (rfl)
@[simp] theorem State.put_heldOld (f : Fld) (v : Nat) : (s.put f v).heldOld = s.heldOld := (rfl)
@[simp] theorem State.put_freshBits (f : Fld) (v : Nat) : (s.put f v).freshBits = s.freshBits := (rfl)
@[simp] theorem State.put_supply (f : Fld) (v : Nat) : (s.put f v).supply = s.supply := (rfl)
@[simp] theorem State.put_clk (f : Fld) (v : Nat) : (s.put f v).clk = s.clk := (rfl)
@[simp] theorem State.put_cfg (f : Fld) (v : Nat) : (s.put f v).cfg = s.cfg := (rfl)
@[simp] theorem State.put_boot (f : Fld) (v : Nat) : (s.put f v).boot = s.boot := (rfl)
@[simp] theorem State.put_nvm (f : Fld) (v : Nat) : (s.put f v).nvm = s.nvm := (rfl)
@[simp] theorem State.put_ports (f : Fld) (v : Nat) : (s.put f v).ports = s.ports := (rfl)
@[simp] theorem State.put_pwr (f : Fld) (v : Nat) : (s.put f v).pwr = s.pwr := (rfl)
@[simp] theorem State.put_evf (f : Fld) (v : Nat) : (s.put f v).evf = s.evf := (rfl)
@[simp] theorem State.put_time (f : Fld) (v : Nat) : (s.put f v).time = s.time := (rfl)
@[simp] theorem State.put_cnt (f : Fld) (v : Nat) : (s.put f v).cnt = s.cnt := (rfl)
@[simp] theorem State.put_safe (f : Fld) (v : Nat) : (s.put f v).safe = s.safe := (rfl)
@[simp] theorem State.put_rings (f : Fld) (v : Nat) : (s.put f v).rings = s.rings := (rfl)
@[simp] theorem State.put_link (f : Fld) (v : Nat) : (s.put f v).link = s.link := (rfl)
@[simp] theorem State.put_sht (f : Fld) (v : Nat) : (s.put f v).sht = s.sht := (rfl)
@[simp] theorem State.put_rdo (f : Fld) (v : Nat) : (s.put f v).rdo = s.rdo := (rfl)
@[simp] theorem State.put_pipe (f : Fld) (v : Nat) : (s.put f v).pipe = s.pipe := (rfl)
@[simp] theorem State.put_wins (f : Fld) (v : Nat) : (s.put f v).wins = s.wins := (rfl)
@[simp] theorem State.put_arc (f : Fld) (v : Nat) : (s.put f v).arc = s.arc := (rfl)
@[simp] theorem State.put_npc (f : Fld) (v : Nat) : (s.put f v).npc = s.npc := (rfl)
@[simp] theorem State.put_hk (f : Fld) (v : Nat) : (s.put f v).hk = s.hk := (rfl)
@[simp] theorem State.put_pio (f : Fld) (v : Nat) : (s.put f v).pio = s.pio := (rfl)
@[simp] theorem State.put_arcadeMem (f : Fld) (v : Nat) : (s.put f v).arcadeMem = s.arcadeMem := (rfl)
@[simp] theorem State.put_tensorMem (f : Fld) (v : Nat) : (s.put f v).tensorMem = s.tensorMem := (rfl)
@[simp] theorem State.put_pending (f : Fld) (v : Nat) : (s.put f v).pending = s.pending := (rfl)

/-! ### State.bump -/

@[simp] theorem State.bump_cycle (f : Fld) (n : Nat) : (s.bump f n).cycle = s.cycle := (rfl)
@[simp] theorem State.bump_fresh (f : Fld) (n : Nat) : (s.bump f n).fresh = s.fresh := (rfl)
@[simp] theorem State.bump_live (f : Fld) (n : Nat) : (s.bump f n).live = s.live := (rfl)
@[simp] theorem State.bump_heldOld (f : Fld) (n : Nat) : (s.bump f n).heldOld = s.heldOld := (rfl)
@[simp] theorem State.bump_freshBits (f : Fld) (n : Nat) : (s.bump f n).freshBits = s.freshBits := (rfl)
@[simp] theorem State.bump_supply (f : Fld) (n : Nat) : (s.bump f n).supply = s.supply := (rfl)
@[simp] theorem State.bump_clk (f : Fld) (n : Nat) : (s.bump f n).clk = s.clk := (rfl)
@[simp] theorem State.bump_cfg (f : Fld) (n : Nat) : (s.bump f n).cfg = s.cfg := (rfl)
@[simp] theorem State.bump_boot (f : Fld) (n : Nat) : (s.bump f n).boot = s.boot := (rfl)
@[simp] theorem State.bump_nvm (f : Fld) (n : Nat) : (s.bump f n).nvm = s.nvm := (rfl)
@[simp] theorem State.bump_ports (f : Fld) (n : Nat) : (s.bump f n).ports = s.ports := (rfl)
@[simp] theorem State.bump_pwr (f : Fld) (n : Nat) : (s.bump f n).pwr = s.pwr := (rfl)
@[simp] theorem State.bump_evf (f : Fld) (n : Nat) : (s.bump f n).evf = s.evf := (rfl)
@[simp] theorem State.bump_time (f : Fld) (n : Nat) : (s.bump f n).time = s.time := (rfl)
@[simp] theorem State.bump_cnt (f : Fld) (n : Nat) : (s.bump f n).cnt = s.cnt := (rfl)
@[simp] theorem State.bump_safe (f : Fld) (n : Nat) : (s.bump f n).safe = s.safe := (rfl)
@[simp] theorem State.bump_rings (f : Fld) (n : Nat) : (s.bump f n).rings = s.rings := (rfl)
@[simp] theorem State.bump_link (f : Fld) (n : Nat) : (s.bump f n).link = s.link := (rfl)
@[simp] theorem State.bump_sht (f : Fld) (n : Nat) : (s.bump f n).sht = s.sht := (rfl)
@[simp] theorem State.bump_rdo (f : Fld) (n : Nat) : (s.bump f n).rdo = s.rdo := (rfl)
@[simp] theorem State.bump_pipe (f : Fld) (n : Nat) : (s.bump f n).pipe = s.pipe := (rfl)
@[simp] theorem State.bump_wins (f : Fld) (n : Nat) : (s.bump f n).wins = s.wins := (rfl)
@[simp] theorem State.bump_arc (f : Fld) (n : Nat) : (s.bump f n).arc = s.arc := (rfl)
@[simp] theorem State.bump_npc (f : Fld) (n : Nat) : (s.bump f n).npc = s.npc := (rfl)
@[simp] theorem State.bump_hk (f : Fld) (n : Nat) : (s.bump f n).hk = s.hk := (rfl)
@[simp] theorem State.bump_pio (f : Fld) (n : Nat) : (s.bump f n).pio = s.pio := (rfl)
@[simp] theorem State.bump_arcadeMem (f : Fld) (n : Nat) : (s.bump f n).arcadeMem = s.arcadeMem := (rfl)
@[simp] theorem State.bump_tensorMem (f : Fld) (n : Nat) : (s.bump f n).tensorMem = s.tensorMem := (rfl)
@[simp] theorem State.bump_pending (f : Fld) (n : Nat) : (s.bump f n).pending = s.pending := (rfl)

/-! ### State.bumpWrap -/

@[simp] theorem State.bumpWrap_cycle (f : Fld) (n : Nat) : (s.bumpWrap f n).cycle = s.cycle := (rfl)
@[simp] theorem State.bumpWrap_fresh (f : Fld) (n : Nat) : (s.bumpWrap f n).fresh = s.fresh := (rfl)
@[simp] theorem State.bumpWrap_live (f : Fld) (n : Nat) : (s.bumpWrap f n).live = s.live := (rfl)
@[simp] theorem State.bumpWrap_heldOld (f : Fld) (n : Nat) : (s.bumpWrap f n).heldOld = s.heldOld := (rfl)
@[simp] theorem State.bumpWrap_freshBits (f : Fld) (n : Nat) : (s.bumpWrap f n).freshBits = s.freshBits := (rfl)
@[simp] theorem State.bumpWrap_supply (f : Fld) (n : Nat) : (s.bumpWrap f n).supply = s.supply := (rfl)
@[simp] theorem State.bumpWrap_clk (f : Fld) (n : Nat) : (s.bumpWrap f n).clk = s.clk := (rfl)
@[simp] theorem State.bumpWrap_cfg (f : Fld) (n : Nat) : (s.bumpWrap f n).cfg = s.cfg := (rfl)
@[simp] theorem State.bumpWrap_boot (f : Fld) (n : Nat) : (s.bumpWrap f n).boot = s.boot := (rfl)
@[simp] theorem State.bumpWrap_nvm (f : Fld) (n : Nat) : (s.bumpWrap f n).nvm = s.nvm := (rfl)
@[simp] theorem State.bumpWrap_ports (f : Fld) (n : Nat) : (s.bumpWrap f n).ports = s.ports := (rfl)
@[simp] theorem State.bumpWrap_pwr (f : Fld) (n : Nat) : (s.bumpWrap f n).pwr = s.pwr := (rfl)
@[simp] theorem State.bumpWrap_evf (f : Fld) (n : Nat) : (s.bumpWrap f n).evf = s.evf := (rfl)
@[simp] theorem State.bumpWrap_time (f : Fld) (n : Nat) : (s.bumpWrap f n).time = s.time := (rfl)
@[simp] theorem State.bumpWrap_cnt (f : Fld) (n : Nat) : (s.bumpWrap f n).cnt = s.cnt := (rfl)
@[simp] theorem State.bumpWrap_safe (f : Fld) (n : Nat) : (s.bumpWrap f n).safe = s.safe := (rfl)
@[simp] theorem State.bumpWrap_rings (f : Fld) (n : Nat) : (s.bumpWrap f n).rings = s.rings := (rfl)
@[simp] theorem State.bumpWrap_link (f : Fld) (n : Nat) : (s.bumpWrap f n).link = s.link := (rfl)
@[simp] theorem State.bumpWrap_sht (f : Fld) (n : Nat) : (s.bumpWrap f n).sht = s.sht := (rfl)
@[simp] theorem State.bumpWrap_rdo (f : Fld) (n : Nat) : (s.bumpWrap f n).rdo = s.rdo := (rfl)
@[simp] theorem State.bumpWrap_pipe (f : Fld) (n : Nat) : (s.bumpWrap f n).pipe = s.pipe := (rfl)
@[simp] theorem State.bumpWrap_wins (f : Fld) (n : Nat) : (s.bumpWrap f n).wins = s.wins := (rfl)
@[simp] theorem State.bumpWrap_arc (f : Fld) (n : Nat) : (s.bumpWrap f n).arc = s.arc := (rfl)
@[simp] theorem State.bumpWrap_npc (f : Fld) (n : Nat) : (s.bumpWrap f n).npc = s.npc := (rfl)
@[simp] theorem State.bumpWrap_hk (f : Fld) (n : Nat) : (s.bumpWrap f n).hk = s.hk := (rfl)
@[simp] theorem State.bumpWrap_pio (f : Fld) (n : Nat) : (s.bumpWrap f n).pio = s.pio := (rfl)
@[simp] theorem State.bumpWrap_arcadeMem (f : Fld) (n : Nat) : (s.bumpWrap f n).arcadeMem = s.arcadeMem := (rfl)
@[simp] theorem State.bumpWrap_tensorMem (f : Fld) (n : Nat) : (s.bumpWrap f n).tensorMem = s.tensorMem := (rfl)
@[simp] theorem State.bumpWrap_pending (f : Fld) (n : Nat) : (s.bumpWrap f n).pending = s.pending := (rfl)

/-! ### State.hwSet -/

@[simp] theorem State.hwSet_cycle (f : Fld) (v : Nat) : (s.hwSet f v).cycle = s.cycle := (rfl)
@[simp] theorem State.hwSet_fresh (f : Fld) (v : Nat) : (s.hwSet f v).fresh = s.fresh := (rfl)
@[simp] theorem State.hwSet_live (f : Fld) (v : Nat) : (s.hwSet f v).live = s.live := (rfl)
@[simp] theorem State.hwSet_heldOld (f : Fld) (v : Nat) : (s.hwSet f v).heldOld = s.heldOld := (rfl)
@[simp] theorem State.hwSet_supply (f : Fld) (v : Nat) : (s.hwSet f v).supply = s.supply := (rfl)
@[simp] theorem State.hwSet_clk (f : Fld) (v : Nat) : (s.hwSet f v).clk = s.clk := (rfl)
@[simp] theorem State.hwSet_cfg (f : Fld) (v : Nat) : (s.hwSet f v).cfg = s.cfg := (rfl)
@[simp] theorem State.hwSet_boot (f : Fld) (v : Nat) : (s.hwSet f v).boot = s.boot := (rfl)
@[simp] theorem State.hwSet_nvm (f : Fld) (v : Nat) : (s.hwSet f v).nvm = s.nvm := (rfl)
@[simp] theorem State.hwSet_ports (f : Fld) (v : Nat) : (s.hwSet f v).ports = s.ports := (rfl)
@[simp] theorem State.hwSet_pwr (f : Fld) (v : Nat) : (s.hwSet f v).pwr = s.pwr := (rfl)
@[simp] theorem State.hwSet_evf (f : Fld) (v : Nat) : (s.hwSet f v).evf = s.evf := (rfl)
@[simp] theorem State.hwSet_time (f : Fld) (v : Nat) : (s.hwSet f v).time = s.time := (rfl)
@[simp] theorem State.hwSet_cnt (f : Fld) (v : Nat) : (s.hwSet f v).cnt = s.cnt := (rfl)
@[simp] theorem State.hwSet_safe (f : Fld) (v : Nat) : (s.hwSet f v).safe = s.safe := (rfl)
@[simp] theorem State.hwSet_rings (f : Fld) (v : Nat) : (s.hwSet f v).rings = s.rings := (rfl)
@[simp] theorem State.hwSet_link (f : Fld) (v : Nat) : (s.hwSet f v).link = s.link := (rfl)
@[simp] theorem State.hwSet_sht (f : Fld) (v : Nat) : (s.hwSet f v).sht = s.sht := (rfl)
@[simp] theorem State.hwSet_rdo (f : Fld) (v : Nat) : (s.hwSet f v).rdo = s.rdo := (rfl)
@[simp] theorem State.hwSet_pipe (f : Fld) (v : Nat) : (s.hwSet f v).pipe = s.pipe := (rfl)
@[simp] theorem State.hwSet_wins (f : Fld) (v : Nat) : (s.hwSet f v).wins = s.wins := (rfl)
@[simp] theorem State.hwSet_arc (f : Fld) (v : Nat) : (s.hwSet f v).arc = s.arc := (rfl)
@[simp] theorem State.hwSet_npc (f : Fld) (v : Nat) : (s.hwSet f v).npc = s.npc := (rfl)
@[simp] theorem State.hwSet_hk (f : Fld) (v : Nat) : (s.hwSet f v).hk = s.hk := (rfl)
@[simp] theorem State.hwSet_pio (f : Fld) (v : Nat) : (s.hwSet f v).pio = s.pio := (rfl)
@[simp] theorem State.hwSet_arcadeMem (f : Fld) (v : Nat) : (s.hwSet f v).arcadeMem = s.arcadeMem := (rfl)
@[simp] theorem State.hwSet_tensorMem (f : Fld) (v : Nat) : (s.hwSet f v).tensorMem = s.tensorMem := (rfl)
@[simp] theorem State.hwSet_pending (f : Fld) (v : Nat) : (s.hwSet f v).pending = s.pending := (rfl)

/-! ### State.put64 -/

@[simp] theorem State.put64_cycle (a b v : Nat) : (s.put64 a b v).cycle = s.cycle := (rfl)
@[simp] theorem State.put64_fresh (a b v : Nat) : (s.put64 a b v).fresh = s.fresh := (rfl)
@[simp] theorem State.put64_live (a b v : Nat) : (s.put64 a b v).live = s.live := (rfl)
@[simp] theorem State.put64_heldOld (a b v : Nat) : (s.put64 a b v).heldOld = s.heldOld := (rfl)
@[simp] theorem State.put64_freshBits (a b v : Nat) : (s.put64 a b v).freshBits = s.freshBits := (rfl)
@[simp] theorem State.put64_supply (a b v : Nat) : (s.put64 a b v).supply = s.supply := (rfl)
@[simp] theorem State.put64_clk (a b v : Nat) : (s.put64 a b v).clk = s.clk := (rfl)
@[simp] theorem State.put64_cfg (a b v : Nat) : (s.put64 a b v).cfg = s.cfg := (rfl)
@[simp] theorem State.put64_boot (a b v : Nat) : (s.put64 a b v).boot = s.boot := (rfl)
@[simp] theorem State.put64_nvm (a b v : Nat) : (s.put64 a b v).nvm = s.nvm := (rfl)
@[simp] theorem State.put64_ports (a b v : Nat) : (s.put64 a b v).ports = s.ports := (rfl)
@[simp] theorem State.put64_pwr (a b v : Nat) : (s.put64 a b v).pwr = s.pwr := (rfl)
@[simp] theorem State.put64_evf (a b v : Nat) : (s.put64 a b v).evf = s.evf := (rfl)
@[simp] theorem State.put64_time (a b v : Nat) : (s.put64 a b v).time = s.time := (rfl)
@[simp] theorem State.put64_cnt (a b v : Nat) : (s.put64 a b v).cnt = s.cnt := (rfl)
@[simp] theorem State.put64_safe (a b v : Nat) : (s.put64 a b v).safe = s.safe := (rfl)
@[simp] theorem State.put64_rings (a b v : Nat) : (s.put64 a b v).rings = s.rings := (rfl)
@[simp] theorem State.put64_link (a b v : Nat) : (s.put64 a b v).link = s.link := (rfl)
@[simp] theorem State.put64_sht (a b v : Nat) : (s.put64 a b v).sht = s.sht := (rfl)
@[simp] theorem State.put64_rdo (a b v : Nat) : (s.put64 a b v).rdo = s.rdo := (rfl)
@[simp] theorem State.put64_pipe (a b v : Nat) : (s.put64 a b v).pipe = s.pipe := (rfl)
@[simp] theorem State.put64_wins (a b v : Nat) : (s.put64 a b v).wins = s.wins := (rfl)
@[simp] theorem State.put64_arc (a b v : Nat) : (s.put64 a b v).arc = s.arc := (rfl)
@[simp] theorem State.put64_npc (a b v : Nat) : (s.put64 a b v).npc = s.npc := (rfl)
@[simp] theorem State.put64_hk (a b v : Nat) : (s.put64 a b v).hk = s.hk := (rfl)
@[simp] theorem State.put64_pio (a b v : Nat) : (s.put64 a b v).pio = s.pio := (rfl)
@[simp] theorem State.put64_arcadeMem (a b v : Nat) : (s.put64 a b v).arcadeMem = s.arcadeMem := (rfl)
@[simp] theorem State.put64_tensorMem (a b v : Nat) : (s.put64 a b v).tensorMem = s.tensorMem := (rfl)
@[simp] theorem State.put64_pending (a b v : Nat) : (s.put64 a b v).pending = s.pending := (rfl)

/-! ### State.putBoth -/

@[simp] theorem State.putBoth_cycle (f : Fld) (v : Nat) : (s.putBoth f v).cycle = s.cycle := (rfl)
@[simp] theorem State.putBoth_fresh (f : Fld) (v : Nat) : (s.putBoth f v).fresh = s.fresh := (rfl)
@[simp] theorem State.putBoth_heldOld (f : Fld) (v : Nat) : (s.putBoth f v).heldOld = s.heldOld := (rfl)
@[simp] theorem State.putBoth_freshBits (f : Fld) (v : Nat) : (s.putBoth f v).freshBits = s.freshBits := (rfl)
@[simp] theorem State.putBoth_supply (f : Fld) (v : Nat) : (s.putBoth f v).supply = s.supply := (rfl)
@[simp] theorem State.putBoth_clk (f : Fld) (v : Nat) : (s.putBoth f v).clk = s.clk := (rfl)
@[simp] theorem State.putBoth_cfg (f : Fld) (v : Nat) : (s.putBoth f v).cfg = s.cfg := (rfl)
@[simp] theorem State.putBoth_boot (f : Fld) (v : Nat) : (s.putBoth f v).boot = s.boot := (rfl)
@[simp] theorem State.putBoth_nvm (f : Fld) (v : Nat) : (s.putBoth f v).nvm = s.nvm := (rfl)
@[simp] theorem State.putBoth_ports (f : Fld) (v : Nat) : (s.putBoth f v).ports = s.ports := (rfl)
@[simp] theorem State.putBoth_pwr (f : Fld) (v : Nat) : (s.putBoth f v).pwr = s.pwr := (rfl)
@[simp] theorem State.putBoth_evf (f : Fld) (v : Nat) : (s.putBoth f v).evf = s.evf := (rfl)
@[simp] theorem State.putBoth_time (f : Fld) (v : Nat) : (s.putBoth f v).time = s.time := (rfl)
@[simp] theorem State.putBoth_cnt (f : Fld) (v : Nat) : (s.putBoth f v).cnt = s.cnt := (rfl)
@[simp] theorem State.putBoth_safe (f : Fld) (v : Nat) : (s.putBoth f v).safe = s.safe := (rfl)
@[simp] theorem State.putBoth_rings (f : Fld) (v : Nat) : (s.putBoth f v).rings = s.rings := (rfl)
@[simp] theorem State.putBoth_link (f : Fld) (v : Nat) : (s.putBoth f v).link = s.link := (rfl)
@[simp] theorem State.putBoth_sht (f : Fld) (v : Nat) : (s.putBoth f v).sht = s.sht := (rfl)
@[simp] theorem State.putBoth_rdo (f : Fld) (v : Nat) : (s.putBoth f v).rdo = s.rdo := (rfl)
@[simp] theorem State.putBoth_pipe (f : Fld) (v : Nat) : (s.putBoth f v).pipe = s.pipe := (rfl)
@[simp] theorem State.putBoth_wins (f : Fld) (v : Nat) : (s.putBoth f v).wins = s.wins := (rfl)
@[simp] theorem State.putBoth_arc (f : Fld) (v : Nat) : (s.putBoth f v).arc = s.arc := (rfl)
@[simp] theorem State.putBoth_npc (f : Fld) (v : Nat) : (s.putBoth f v).npc = s.npc := (rfl)
@[simp] theorem State.putBoth_hk (f : Fld) (v : Nat) : (s.putBoth f v).hk = s.hk := (rfl)
@[simp] theorem State.putBoth_pio (f : Fld) (v : Nat) : (s.putBoth f v).pio = s.pio := (rfl)
@[simp] theorem State.putBoth_arcadeMem (f : Fld) (v : Nat) : (s.putBoth f v).arcadeMem = s.arcadeMem := (rfl)
@[simp] theorem State.putBoth_tensorMem (f : Fld) (v : Nat) : (s.putBoth f v).tensorMem = s.tensorMem := (rfl)
@[simp] theorem State.putBoth_pending (f : Fld) (v : Nat) : (s.putBoth f v).pending = s.pending := (rfl)

/-! ### State.setCounter -/

@[simp] theorem State.setCounter_cycle (k v : Nat) : (s.setCounter k v).cycle = s.cycle := (rfl)
@[simp] theorem State.setCounter_fresh (k v : Nat) : (s.setCounter k v).fresh = s.fresh := (rfl)
@[simp] theorem State.setCounter_live (k v : Nat) : (s.setCounter k v).live = s.live := (rfl)
@[simp] theorem State.setCounter_heldOld (k v : Nat) : (s.setCounter k v).heldOld = s.heldOld := (rfl)
@[simp] theorem State.setCounter_freshBits (k v : Nat) : (s.setCounter k v).freshBits = s.freshBits := (rfl)
@[simp] theorem State.setCounter_supply (k v : Nat) : (s.setCounter k v).supply = s.supply := (rfl)
@[simp] theorem State.setCounter_clk (k v : Nat) : (s.setCounter k v).clk = s.clk := (rfl)
@[simp] theorem State.setCounter_cfg (k v : Nat) : (s.setCounter k v).cfg = s.cfg := (rfl)
@[simp] theorem State.setCounter_boot (k v : Nat) : (s.setCounter k v).boot = s.boot := (rfl)
@[simp] theorem State.setCounter_nvm (k v : Nat) : (s.setCounter k v).nvm = s.nvm := (rfl)
@[simp] theorem State.setCounter_ports (k v : Nat) : (s.setCounter k v).ports = s.ports := (rfl)
@[simp] theorem State.setCounter_pwr (k v : Nat) : (s.setCounter k v).pwr = s.pwr := (rfl)
@[simp] theorem State.setCounter_evf (k v : Nat) : (s.setCounter k v).evf = s.evf := (rfl)
@[simp] theorem State.setCounter_time (k v : Nat) : (s.setCounter k v).time = s.time := (rfl)
@[simp] theorem State.setCounter_cnt (k v : Nat) : (s.setCounter k v).cnt = s.cnt := (rfl)
@[simp] theorem State.setCounter_safe (k v : Nat) : (s.setCounter k v).safe = s.safe := (rfl)
@[simp] theorem State.setCounter_rings (k v : Nat) : (s.setCounter k v).rings = s.rings := (rfl)
@[simp] theorem State.setCounter_link (k v : Nat) : (s.setCounter k v).link = s.link := (rfl)
@[simp] theorem State.setCounter_sht (k v : Nat) : (s.setCounter k v).sht = s.sht := (rfl)
@[simp] theorem State.setCounter_rdo (k v : Nat) : (s.setCounter k v).rdo = s.rdo := (rfl)
@[simp] theorem State.setCounter_pipe (k v : Nat) : (s.setCounter k v).pipe = s.pipe := (rfl)
@[simp] theorem State.setCounter_wins (k v : Nat) : (s.setCounter k v).wins = s.wins := (rfl)
@[simp] theorem State.setCounter_arc (k v : Nat) : (s.setCounter k v).arc = s.arc := (rfl)
@[simp] theorem State.setCounter_npc (k v : Nat) : (s.setCounter k v).npc = s.npc := (rfl)
@[simp] theorem State.setCounter_hk (k v : Nat) : (s.setCounter k v).hk = s.hk := (rfl)
@[simp] theorem State.setCounter_pio (k v : Nat) : (s.setCounter k v).pio = s.pio := (rfl)
@[simp] theorem State.setCounter_arcadeMem (k v : Nat) : (s.setCounter k v).arcadeMem = s.arcadeMem := (rfl)
@[simp] theorem State.setCounter_tensorMem (k v : Nat) : (s.setCounter k v).tensorMem = s.tensorMem := (rfl)
@[simp] theorem State.setCounter_pending (k v : Nat) : (s.setCounter k v).pending = s.pending := (rfl)

/-! ### State.setUnit -/

@[simp] theorem State.setUnit_cycle (n : Nat) (u : TrigUnit) : (s.setUnit n u).cycle = s.cycle := (rfl)
@[simp] theorem State.setUnit_fresh (n : Nat) (u : TrigUnit) : (s.setUnit n u).fresh = s.fresh := (rfl)
@[simp] theorem State.setUnit_regs (n : Nat) (u : TrigUnit) : (s.setUnit n u).regs = s.regs := (rfl)
@[simp] theorem State.setUnit_live (n : Nat) (u : TrigUnit) : (s.setUnit n u).live = s.live := (rfl)
@[simp] theorem State.setUnit_heldOld (n : Nat) (u : TrigUnit) : (s.setUnit n u).heldOld = s.heldOld := (rfl)
@[simp] theorem State.setUnit_freshBits (n : Nat) (u : TrigUnit) : (s.setUnit n u).freshBits = s.freshBits := (rfl)
@[simp] theorem State.setUnit_supply (n : Nat) (u : TrigUnit) : (s.setUnit n u).supply = s.supply := (rfl)
@[simp] theorem State.setUnit_clk (n : Nat) (u : TrigUnit) : (s.setUnit n u).clk = s.clk := (rfl)
@[simp] theorem State.setUnit_cfg (n : Nat) (u : TrigUnit) : (s.setUnit n u).cfg = s.cfg := (rfl)
@[simp] theorem State.setUnit_boot (n : Nat) (u : TrigUnit) : (s.setUnit n u).boot = s.boot := (rfl)
@[simp] theorem State.setUnit_nvm (n : Nat) (u : TrigUnit) : (s.setUnit n u).nvm = s.nvm := (rfl)
@[simp] theorem State.setUnit_ports (n : Nat) (u : TrigUnit) : (s.setUnit n u).ports = s.ports := (rfl)
@[simp] theorem State.setUnit_pwr (n : Nat) (u : TrigUnit) : (s.setUnit n u).pwr = s.pwr := (rfl)
@[simp] theorem State.setUnit_time (n : Nat) (u : TrigUnit) : (s.setUnit n u).time = s.time := (rfl)
@[simp] theorem State.setUnit_cnt (n : Nat) (u : TrigUnit) : (s.setUnit n u).cnt = s.cnt := (rfl)
@[simp] theorem State.setUnit_safe (n : Nat) (u : TrigUnit) : (s.setUnit n u).safe = s.safe := (rfl)
@[simp] theorem State.setUnit_rings (n : Nat) (u : TrigUnit) : (s.setUnit n u).rings = s.rings := (rfl)
@[simp] theorem State.setUnit_link (n : Nat) (u : TrigUnit) : (s.setUnit n u).link = s.link := (rfl)
@[simp] theorem State.setUnit_sht (n : Nat) (u : TrigUnit) : (s.setUnit n u).sht = s.sht := (rfl)
@[simp] theorem State.setUnit_rdo (n : Nat) (u : TrigUnit) : (s.setUnit n u).rdo = s.rdo := (rfl)
@[simp] theorem State.setUnit_pipe (n : Nat) (u : TrigUnit) : (s.setUnit n u).pipe = s.pipe := (rfl)
@[simp] theorem State.setUnit_wins (n : Nat) (u : TrigUnit) : (s.setUnit n u).wins = s.wins := (rfl)
@[simp] theorem State.setUnit_arc (n : Nat) (u : TrigUnit) : (s.setUnit n u).arc = s.arc := (rfl)
@[simp] theorem State.setUnit_npc (n : Nat) (u : TrigUnit) : (s.setUnit n u).npc = s.npc := (rfl)
@[simp] theorem State.setUnit_hk (n : Nat) (u : TrigUnit) : (s.setUnit n u).hk = s.hk := (rfl)
@[simp] theorem State.setUnit_pio (n : Nat) (u : TrigUnit) : (s.setUnit n u).pio = s.pio := (rfl)
@[simp] theorem State.setUnit_arcadeMem (n : Nat) (u : TrigUnit) : (s.setUnit n u).arcadeMem = s.arcadeMem := (rfl)
@[simp] theorem State.setUnit_tensorMem (n : Nat) (u : TrigUnit) : (s.setUnit n u).tensorMem = s.tensorMem := (rfl)
@[simp] theorem State.setUnit_pending (n : Nat) (u : TrigUnit) : (s.setUnit n u).pending = s.pending := (rfl)

/-! ### State.request -/

@[simp] theorem State.request_cycle (r : Request) : (s.request r).cycle = s.cycle := (rfl)
@[simp] theorem State.request_fresh (r : Request) : (s.request r).fresh = s.fresh := (rfl)
@[simp] theorem State.request_regs (r : Request) : (s.request r).regs = s.regs := (rfl)
@[simp] theorem State.request_live (r : Request) : (s.request r).live = s.live := (rfl)
@[simp] theorem State.request_heldOld (r : Request) : (s.request r).heldOld = s.heldOld := (rfl)
@[simp] theorem State.request_freshBits (r : Request) : (s.request r).freshBits = s.freshBits := (rfl)
@[simp] theorem State.request_supply (r : Request) : (s.request r).supply = s.supply := (rfl)
@[simp] theorem State.request_clk (r : Request) : (s.request r).clk = s.clk := (rfl)
@[simp] theorem State.request_cfg (r : Request) : (s.request r).cfg = s.cfg := (rfl)
@[simp] theorem State.request_boot (r : Request) : (s.request r).boot = s.boot := (rfl)
@[simp] theorem State.request_nvm (r : Request) : (s.request r).nvm = s.nvm := (rfl)
@[simp] theorem State.request_ports (r : Request) : (s.request r).ports = s.ports := (rfl)
@[simp] theorem State.request_pwr (r : Request) : (s.request r).pwr = s.pwr := (rfl)
@[simp] theorem State.request_time (r : Request) : (s.request r).time = s.time := (rfl)
@[simp] theorem State.request_cnt (r : Request) : (s.request r).cnt = s.cnt := (rfl)
@[simp] theorem State.request_safe (r : Request) : (s.request r).safe = s.safe := (rfl)
@[simp] theorem State.request_rings (r : Request) : (s.request r).rings = s.rings := (rfl)
@[simp] theorem State.request_link (r : Request) : (s.request r).link = s.link := (rfl)
@[simp] theorem State.request_sht (r : Request) : (s.request r).sht = s.sht := (rfl)
@[simp] theorem State.request_rdo (r : Request) : (s.request r).rdo = s.rdo := (rfl)
@[simp] theorem State.request_pipe (r : Request) : (s.request r).pipe = s.pipe := (rfl)
@[simp] theorem State.request_wins (r : Request) : (s.request r).wins = s.wins := (rfl)
@[simp] theorem State.request_arc (r : Request) : (s.request r).arc = s.arc := (rfl)
@[simp] theorem State.request_npc (r : Request) : (s.request r).npc = s.npc := (rfl)
@[simp] theorem State.request_hk (r : Request) : (s.request r).hk = s.hk := (rfl)
@[simp] theorem State.request_pio (r : Request) : (s.request r).pio = s.pio := (rfl)
@[simp] theorem State.request_arcadeMem (r : Request) : (s.request r).arcadeMem = s.arcadeMem := (rfl)
@[simp] theorem State.request_tensorMem (r : Request) : (s.request r).tensorMem = s.tensorMem := (rfl)
@[simp] theorem State.request_pending (r : Request) : (s.request r).pending = s.pending := (rfl)

/-! ### State.countN -/

@[simp] theorem State.countN_cycle (a n : Nat) : (s.countN a n).cycle = s.cycle := (rfl)
@[simp] theorem State.countN_fresh (a n : Nat) : (s.countN a n).fresh = s.fresh := (rfl)
@[simp] theorem State.countN_regs (a n : Nat) : (s.countN a n).regs = s.regs := (rfl)
@[simp] theorem State.countN_live (a n : Nat) : (s.countN a n).live = s.live := (rfl)
@[simp] theorem State.countN_heldOld (a n : Nat) : (s.countN a n).heldOld = s.heldOld := (rfl)
@[simp] theorem State.countN_freshBits (a n : Nat) : (s.countN a n).freshBits = s.freshBits := (rfl)
@[simp] theorem State.countN_supply (a n : Nat) : (s.countN a n).supply = s.supply := (rfl)
@[simp] theorem State.countN_clk (a n : Nat) : (s.countN a n).clk = s.clk := (rfl)
@[simp] theorem State.countN_cfg (a n : Nat) : (s.countN a n).cfg = s.cfg := (rfl)
@[simp] theorem State.countN_boot (a n : Nat) : (s.countN a n).boot = s.boot := (rfl)
@[simp] theorem State.countN_nvm (a n : Nat) : (s.countN a n).nvm = s.nvm := (rfl)
@[simp] theorem State.countN_ports (a n : Nat) : (s.countN a n).ports = s.ports := (rfl)
@[simp] theorem State.countN_pwr (a n : Nat) : (s.countN a n).pwr = s.pwr := (rfl)
@[simp] theorem State.countN_evf (a n : Nat) : (s.countN a n).evf = s.evf := (rfl)
@[simp] theorem State.countN_time (a n : Nat) : (s.countN a n).time = s.time := (rfl)
@[simp] theorem State.countN_safe (a n : Nat) : (s.countN a n).safe = s.safe := (rfl)
@[simp] theorem State.countN_rings (a n : Nat) : (s.countN a n).rings = s.rings := (rfl)
@[simp] theorem State.countN_link (a n : Nat) : (s.countN a n).link = s.link := (rfl)
@[simp] theorem State.countN_sht (a n : Nat) : (s.countN a n).sht = s.sht := (rfl)
@[simp] theorem State.countN_rdo (a n : Nat) : (s.countN a n).rdo = s.rdo := (rfl)
@[simp] theorem State.countN_pipe (a n : Nat) : (s.countN a n).pipe = s.pipe := (rfl)
@[simp] theorem State.countN_wins (a n : Nat) : (s.countN a n).wins = s.wins := (rfl)
@[simp] theorem State.countN_arc (a n : Nat) : (s.countN a n).arc = s.arc := (rfl)
@[simp] theorem State.countN_npc (a n : Nat) : (s.countN a n).npc = s.npc := (rfl)
@[simp] theorem State.countN_hk (a n : Nat) : (s.countN a n).hk = s.hk := (rfl)
@[simp] theorem State.countN_pio (a n : Nat) : (s.countN a n).pio = s.pio := (rfl)
@[simp] theorem State.countN_arcadeMem (a n : Nat) : (s.countN a n).arcadeMem = s.arcadeMem := (rfl)
@[simp] theorem State.countN_tensorMem (a n : Nat) : (s.countN a n).tensorMem = s.tensorMem := (rfl)
@[simp] theorem State.countN_pending (a n : Nat) : (s.countN a n).pending = s.pending := (rfl)

/-! ### State.setRing -/

@[simp] theorem State.setRing_cycle (n : Nat) (r : RingSt) : (s.setRing n r).cycle = s.cycle := (rfl)
@[simp] theorem State.setRing_fresh (n : Nat) (r : RingSt) : (s.setRing n r).fresh = s.fresh := (rfl)
@[simp] theorem State.setRing_regs (n : Nat) (r : RingSt) : (s.setRing n r).regs = s.regs := (rfl)
@[simp] theorem State.setRing_live (n : Nat) (r : RingSt) : (s.setRing n r).live = s.live := (rfl)
@[simp] theorem State.setRing_heldOld (n : Nat) (r : RingSt) : (s.setRing n r).heldOld = s.heldOld := (rfl)
@[simp] theorem State.setRing_freshBits (n : Nat) (r : RingSt) : (s.setRing n r).freshBits = s.freshBits := (rfl)
@[simp] theorem State.setRing_supply (n : Nat) (r : RingSt) : (s.setRing n r).supply = s.supply := (rfl)
@[simp] theorem State.setRing_clk (n : Nat) (r : RingSt) : (s.setRing n r).clk = s.clk := (rfl)
@[simp] theorem State.setRing_cfg (n : Nat) (r : RingSt) : (s.setRing n r).cfg = s.cfg := (rfl)
@[simp] theorem State.setRing_boot (n : Nat) (r : RingSt) : (s.setRing n r).boot = s.boot := (rfl)
@[simp] theorem State.setRing_nvm (n : Nat) (r : RingSt) : (s.setRing n r).nvm = s.nvm := (rfl)
@[simp] theorem State.setRing_ports (n : Nat) (r : RingSt) : (s.setRing n r).ports = s.ports := (rfl)
@[simp] theorem State.setRing_pwr (n : Nat) (r : RingSt) : (s.setRing n r).pwr = s.pwr := (rfl)
@[simp] theorem State.setRing_evf (n : Nat) (r : RingSt) : (s.setRing n r).evf = s.evf := (rfl)
@[simp] theorem State.setRing_time (n : Nat) (r : RingSt) : (s.setRing n r).time = s.time := (rfl)
@[simp] theorem State.setRing_cnt (n : Nat) (r : RingSt) : (s.setRing n r).cnt = s.cnt := (rfl)
@[simp] theorem State.setRing_safe (n : Nat) (r : RingSt) : (s.setRing n r).safe = s.safe := (rfl)
@[simp] theorem State.setRing_link (n : Nat) (r : RingSt) : (s.setRing n r).link = s.link := (rfl)
@[simp] theorem State.setRing_sht (n : Nat) (r : RingSt) : (s.setRing n r).sht = s.sht := (rfl)
@[simp] theorem State.setRing_rdo (n : Nat) (r : RingSt) : (s.setRing n r).rdo = s.rdo := (rfl)
@[simp] theorem State.setRing_pipe (n : Nat) (r : RingSt) : (s.setRing n r).pipe = s.pipe := (rfl)
@[simp] theorem State.setRing_wins (n : Nat) (r : RingSt) : (s.setRing n r).wins = s.wins := (rfl)
@[simp] theorem State.setRing_arc (n : Nat) (r : RingSt) : (s.setRing n r).arc = s.arc := (rfl)
@[simp] theorem State.setRing_npc (n : Nat) (r : RingSt) : (s.setRing n r).npc = s.npc := (rfl)
@[simp] theorem State.setRing_hk (n : Nat) (r : RingSt) : (s.setRing n r).hk = s.hk := (rfl)
@[simp] theorem State.setRing_pio (n : Nat) (r : RingSt) : (s.setRing n r).pio = s.pio := (rfl)
@[simp] theorem State.setRing_arcadeMem (n : Nat) (r : RingSt) : (s.setRing n r).arcadeMem = s.arcadeMem := (rfl)
@[simp] theorem State.setRing_tensorMem (n : Nat) (r : RingSt) : (s.setRing n r).tensorMem = s.tensorMem := (rfl)
@[simp] theorem State.setRing_pending (n : Nat) (r : RingSt) : (s.setRing n r).pending = s.pending := (rfl)

/-! ### State.charge -/

@[simp] theorem State.charge_cycle (a n : Nat) : (s.charge a n).cycle = s.cycle := (rfl)
@[simp] theorem State.charge_fresh (a n : Nat) : (s.charge a n).fresh = s.fresh := (rfl)
@[simp] theorem State.charge_regs (a n : Nat) : (s.charge a n).regs = s.regs := (rfl)
@[simp] theorem State.charge_live (a n : Nat) : (s.charge a n).live = s.live := (rfl)
@[simp] theorem State.charge_heldOld (a n : Nat) : (s.charge a n).heldOld = s.heldOld := (rfl)
@[simp] theorem State.charge_freshBits (a n : Nat) : (s.charge a n).freshBits = s.freshBits := (rfl)
@[simp] theorem State.charge_supply (a n : Nat) : (s.charge a n).supply = s.supply := (rfl)
@[simp] theorem State.charge_clk (a n : Nat) : (s.charge a n).clk = s.clk := (rfl)
@[simp] theorem State.charge_cfg (a n : Nat) : (s.charge a n).cfg = s.cfg := (rfl)
@[simp] theorem State.charge_boot (a n : Nat) : (s.charge a n).boot = s.boot := (rfl)
@[simp] theorem State.charge_nvm (a n : Nat) : (s.charge a n).nvm = s.nvm := (rfl)
@[simp] theorem State.charge_ports (a n : Nat) : (s.charge a n).ports = s.ports := (rfl)
@[simp] theorem State.charge_pwr (a n : Nat) : (s.charge a n).pwr = s.pwr := (rfl)
@[simp] theorem State.charge_evf (a n : Nat) : (s.charge a n).evf = s.evf := (rfl)
@[simp] theorem State.charge_time (a n : Nat) : (s.charge a n).time = s.time := (rfl)
@[simp] theorem State.charge_cnt (a n : Nat) : (s.charge a n).cnt = s.cnt := (rfl)
@[simp] theorem State.charge_safe (a n : Nat) : (s.charge a n).safe = s.safe := (rfl)
@[simp] theorem State.charge_rings (a n : Nat) : (s.charge a n).rings = s.rings := (rfl)
@[simp] theorem State.charge_sht (a n : Nat) : (s.charge a n).sht = s.sht := (rfl)
@[simp] theorem State.charge_rdo (a n : Nat) : (s.charge a n).rdo = s.rdo := (rfl)
@[simp] theorem State.charge_pipe (a n : Nat) : (s.charge a n).pipe = s.pipe := (rfl)
@[simp] theorem State.charge_wins (a n : Nat) : (s.charge a n).wins = s.wins := (rfl)
@[simp] theorem State.charge_arc (a n : Nat) : (s.charge a n).arc = s.arc := (rfl)
@[simp] theorem State.charge_npc (a n : Nat) : (s.charge a n).npc = s.npc := (rfl)
@[simp] theorem State.charge_hk (a n : Nat) : (s.charge a n).hk = s.hk := (rfl)
@[simp] theorem State.charge_pio (a n : Nat) : (s.charge a n).pio = s.pio := (rfl)
@[simp] theorem State.charge_arcadeMem (a n : Nat) : (s.charge a n).arcadeMem = s.arcadeMem := (rfl)
@[simp] theorem State.charge_tensorMem (a n : Nat) : (s.charge a n).tensorMem = s.tensorMem := (rfl)
@[simp] theorem State.charge_pending (a n : Nat) : (s.charge a n).pending = s.pending := (rfl)

/-! ### Registers after the update of another part -/

@[simp] theorem State.reg_withCycle (x : Nat) (r : Nat) : (s.withCycle x).reg r = s.reg r := (rfl)
@[simp] theorem State.get_withCycle (x : Nat) (f : Fld) : (s.withCycle x).get f = s.get f := (rfl)
@[simp] theorem State.on_withCycle (x : Nat) (f : Fld) : (s.withCycle x).on f = s.on f := (rfl)
@[simp] theorem State.lget_withCycle (x : Nat) (f : Fld) : (s.withCycle x).lget f = s.lget f := (rfl)
@[simp] theorem State.reg_withFresh (x : Nat) (r : Nat) : (s.withFresh x).reg r = s.reg r := (rfl)
@[simp] theorem State.get_withFresh (x : Nat) (f : Fld) : (s.withFresh x).get f = s.get f := (rfl)
@[simp] theorem State.on_withFresh (x : Nat) (f : Fld) : (s.withFresh x).on f = s.on f := (rfl)
@[simp] theorem State.lget_withFresh (x : Nat) (f : Fld) : (s.withFresh x).lget f = s.lget f := (rfl)
@[simp] theorem State.lget_withRegs (x : List (Nat × Word)) (f : Fld) : (s.withRegs x).lget f = s.lget f := (rfl)
@[simp] theorem State.reg_withLive (x : List (Nat × Word)) (r : Nat) : (s.withLive x).reg r = s.reg r := (rfl)
@[simp] theorem State.get_withLive (x : List (Nat × Word)) (f : Fld) : (s.withLive x).get f = s.get f := (rfl)
@[simp] theorem State.on_withLive (x : List (Nat × Word)) (f : Fld) : (s.withLive x).on f = s.on f := (rfl)
@[simp] theorem State.reg_withHeldOld (x : List (Nat × Word)) (r : Nat) : (s.withHeldOld x).reg r = s.reg r := (rfl)
@[simp] theorem State.get_withHeldOld (x : List (Nat × Word)) (f : Fld) : (s.withHeldOld x).get f = s.get f := (rfl)
@[simp] theorem State.on_withHeldOld (x : List (Nat × Word)) (f : Fld) : (s.withHeldOld x).on f = s.on f := (rfl)
@[simp] theorem State.lget_withHeldOld (x : List (Nat × Word)) (f : Fld) : (s.withHeldOld x).lget f = s.lget f := (rfl)
@[simp] theorem State.reg_withFreshBits (x : List (Nat × Nat)) (r : Nat) : (s.withFreshBits x).reg r = s.reg r := (rfl)
@[simp] theorem State.get_withFreshBits (x : List (Nat × Nat)) (f : Fld) : (s.withFreshBits x).get f = s.get f := (rfl)
@[simp] theorem State.on_withFreshBits (x : List (Nat × Nat)) (f : Fld) : (s.withFreshBits x).on f = s.on f := (rfl)
@[simp] theorem State.lget_withFreshBits (x : List (Nat × Nat)) (f : Fld) : (s.withFreshBits x).lget f = s.lget f := (rfl)
@[simp] theorem State.reg_withSupply (x : Supply) (r : Nat) : (s.withSupply x).reg r = s.reg r := (rfl)
@[simp] theorem State.get_withSupply (x : Supply) (f : Fld) : (s.withSupply x).get f = s.get f := (rfl)
@[simp] theorem State.on_withSupply (x : Supply) (f : Fld) : (s.withSupply x).on f = s.on f := (rfl)
@[simp] theorem State.lget_withSupply (x : Supply) (f : Fld) : (s.withSupply x).lget f = s.lget f := (rfl)
@[simp] theorem State.reg_withClk (x : Clocks) (r : Nat) : (s.withClk x).reg r = s.reg r := (rfl)
@[simp] theorem State.get_withClk (x : Clocks) (f : Fld) : (s.withClk x).get f = s.get f := (rfl)
@[simp] theorem State.on_withClk (x : Clocks) (f : Fld) : (s.withClk x).on f = s.on f := (rfl)
@[simp] theorem State.lget_withClk (x : Clocks) (f : Fld) : (s.withClk x).lget f = s.lget f := (rfl)
@[simp] theorem State.reg_withCfg (x : Loader) (r : Nat) : (s.withCfg x).reg r = s.reg r := (rfl)
@[simp] theorem State.get_withCfg (x : Loader) (f : Fld) : (s.withCfg x).get f = s.get f := (rfl)
@[simp] theorem State.on_withCfg (x : Loader) (f : Fld) : (s.withCfg x).on f = s.on f := (rfl)
@[simp] theorem State.lget_withCfg (x : Loader) (f : Fld) : (s.withCfg x).lget f = s.lget f := (rfl)
@[simp] theorem State.reg_withBoot (x : Boot) (r : Nat) : (s.withBoot x).reg r = s.reg r := (rfl)
@[simp] theorem State.get_withBoot (x : Boot) (f : Fld) : (s.withBoot x).get f = s.get f := (rfl)
@[simp] theorem State.on_withBoot (x : Boot) (f : Fld) : (s.withBoot x).on f = s.on f := (rfl)
@[simp] theorem State.lget_withBoot (x : Boot) (f : Fld) : (s.withBoot x).lget f = s.lget f := (rfl)
@[simp] theorem State.reg_withNvm (x : Nvm) (r : Nat) : (s.withNvm x).reg r = s.reg r := (rfl)
@[simp] theorem State.get_withNvm (x : Nvm) (f : Fld) : (s.withNvm x).get f = s.get f := (rfl)
@[simp] theorem State.on_withNvm (x : Nvm) (f : Fld) : (s.withNvm x).on f = s.on f := (rfl)
@[simp] theorem State.lget_withNvm (x : Nvm) (f : Fld) : (s.withNvm x).lget f = s.lget f := (rfl)
@[simp] theorem State.reg_withPorts (x : Ports) (r : Nat) : (s.withPorts x).reg r = s.reg r := (rfl)
@[simp] theorem State.get_withPorts (x : Ports) (f : Fld) : (s.withPorts x).get f = s.get f := (rfl)
@[simp] theorem State.on_withPorts (x : Ports) (f : Fld) : (s.withPorts x).on f = s.on f := (rfl)
@[simp] theorem State.lget_withPorts (x : Ports) (f : Fld) : (s.withPorts x).lget f = s.lget f := (rfl)
@[simp] theorem State.reg_withPwr (x : Power) (r : Nat) : (s.withPwr x).reg r = s.reg r := (rfl)
@[simp] theorem State.get_withPwr (x : Power) (f : Fld) : (s.withPwr x).get f = s.get f := (rfl)
@[simp] theorem State.on_withPwr (x : Power) (f : Fld) : (s.withPwr x).on f = s.on f := (rfl)
@[simp] theorem State.lget_withPwr (x : Power) (f : Fld) : (s.withPwr x).lget f = s.lget f := (rfl)
@[simp] theorem State.reg_withEvf (x : Evf) (r : Nat) : (s.withEvf x).reg r = s.reg r := (rfl)
@[simp] theorem State.get_withEvf (x : Evf) (f : Fld) : (s.withEvf x).get f = s.get f := (rfl)
@[simp] theorem State.on_withEvf (x : Evf) (f : Fld) : (s.withEvf x).on f = s.on f := (rfl)
@[simp] theorem State.lget_withEvf (x : Evf) (f : Fld) : (s.withEvf x).lget f = s.lget f := (rfl)
@[simp] theorem State.reg_withTime (x : TimeBase) (r : Nat) : (s.withTime x).reg r = s.reg r := (rfl)
@[simp] theorem State.get_withTime (x : TimeBase) (f : Fld) : (s.withTime x).get f = s.get f := (rfl)
@[simp] theorem State.on_withTime (x : TimeBase) (f : Fld) : (s.withTime x).on f = s.on f := (rfl)
@[simp] theorem State.lget_withTime (x : TimeBase) (f : Fld) : (s.withTime x).lget f = s.lget f := (rfl)
@[simp] theorem State.reg_withCnt (x : Counters) (r : Nat) : (s.withCnt x).reg r = s.reg r := (rfl)
@[simp] theorem State.get_withCnt (x : Counters) (f : Fld) : (s.withCnt x).get f = s.get f := (rfl)
@[simp] theorem State.on_withCnt (x : Counters) (f : Fld) : (s.withCnt x).on f = s.on f := (rfl)
@[simp] theorem State.lget_withCnt (x : Counters) (f : Fld) : (s.withCnt x).lget f = s.lget f := (rfl)
@[simp] theorem State.reg_withSafe (x : Safety) (r : Nat) : (s.withSafe x).reg r = s.reg r := (rfl)
@[simp] theorem State.get_withSafe (x : Safety) (f : Fld) : (s.withSafe x).get f = s.get f := (rfl)
@[simp] theorem State.on_withSafe (x : Safety) (f : Fld) : (s.withSafe x).on f = s.on f := (rfl)
@[simp] theorem State.lget_withSafe (x : Safety) (f : Fld) : (s.withSafe x).lget f = s.lget f := (rfl)
@[simp] theorem State.reg_withRings (x : List (Nat × RingSt)) (r : Nat) : (s.withRings x).reg r = s.reg r := (rfl)
@[simp] theorem State.get_withRings (x : List (Nat × RingSt)) (f : Fld) : (s.withRings x).get f = s.get f := (rfl)
@[simp] theorem State.on_withRings (x : List (Nat × RingSt)) (f : Fld) : (s.withRings x).on f = s.on f := (rfl)
@[simp] theorem State.lget_withRings (x : List (Nat × RingSt)) (f : Fld) : (s.withRings x).lget f = s.lget f := (rfl)
@[simp] theorem State.reg_withLink (x : LinkSt) (r : Nat) : (s.withLink x).reg r = s.reg r := (rfl)
@[simp] theorem State.get_withLink (x : LinkSt) (f : Fld) : (s.withLink x).get f = s.get f := (rfl)
@[simp] theorem State.on_withLink (x : LinkSt) (f : Fld) : (s.withLink x).on f = s.on f := (rfl)
@[simp] theorem State.lget_withLink (x : LinkSt) (f : Fld) : (s.withLink x).lget f = s.lget f := (rfl)
@[simp] theorem State.reg_withSht (x : Shutter) (r : Nat) : (s.withSht x).reg r = s.reg r := (rfl)
@[simp] theorem State.get_withSht (x : Shutter) (f : Fld) : (s.withSht x).get f = s.get f := (rfl)
@[simp] theorem State.on_withSht (x : Shutter) (f : Fld) : (s.withSht x).on f = s.on f := (rfl)
@[simp] theorem State.lget_withSht (x : Shutter) (f : Fld) : (s.withSht x).lget f = s.lget f := (rfl)
@[simp] theorem State.reg_withRdo (x : Readout) (r : Nat) : (s.withRdo x).reg r = s.reg r := (rfl)
@[simp] theorem State.get_withRdo (x : Readout) (f : Fld) : (s.withRdo x).get f = s.get f := (rfl)
@[simp] theorem State.on_withRdo (x : Readout) (f : Fld) : (s.withRdo x).on f = s.on f := (rfl)
@[simp] theorem State.lget_withRdo (x : Readout) (f : Fld) : (s.withRdo x).lget f = s.lget f := (rfl)
@[simp] theorem State.reg_withPipe (x : Pipe) (r : Nat) : (s.withPipe x).reg r = s.reg r := (rfl)
@[simp] theorem State.get_withPipe (x : Pipe) (f : Fld) : (s.withPipe x).get f = s.get f := (rfl)
@[simp] theorem State.on_withPipe (x : Pipe) (f : Fld) : (s.withPipe x).on f = s.on f := (rfl)
@[simp] theorem State.lget_withPipe (x : Pipe) (f : Fld) : (s.withPipe x).lget f = s.lget f := (rfl)
@[simp] theorem State.reg_withWins (x : List (Nat × WinFrame)) (r : Nat) : (s.withWins x).reg r = s.reg r := (rfl)
@[simp] theorem State.get_withWins (x : List (Nat × WinFrame)) (f : Fld) : (s.withWins x).get f = s.get f := (rfl)
@[simp] theorem State.on_withWins (x : List (Nat × WinFrame)) (f : Fld) : (s.withWins x).on f = s.on f := (rfl)
@[simp] theorem State.lget_withWins (x : List (Nat × WinFrame)) (f : Fld) : (s.withWins x).lget f = s.lget f := (rfl)
@[simp] theorem State.reg_withArc (x : Arcade) (r : Nat) : (s.withArc x).reg r = s.reg r := (rfl)
@[simp] theorem State.get_withArc (x : Arcade) (f : Fld) : (s.withArc x).get f = s.get f := (rfl)
@[simp] theorem State.on_withArc (x : Arcade) (f : Fld) : (s.withArc x).on f = s.on f := (rfl)
@[simp] theorem State.lget_withArc (x : Arcade) (f : Fld) : (s.withArc x).lget f = s.lget f := (rfl)
@[simp] theorem State.reg_withNpc (x : Npc) (r : Nat) : (s.withNpc x).reg r = s.reg r := (rfl)
@[simp] theorem State.get_withNpc (x : Npc) (f : Fld) : (s.withNpc x).get f = s.get f := (rfl)
@[simp] theorem State.on_withNpc (x : Npc) (f : Fld) : (s.withNpc x).on f = s.on f := (rfl)
@[simp] theorem State.lget_withNpc (x : Npc) (f : Fld) : (s.withNpc x).lget f = s.lget f := (rfl)
@[simp] theorem State.reg_withHk (x : Hk) (r : Nat) : (s.withHk x).reg r = s.reg r := (rfl)
@[simp] theorem State.get_withHk (x : Hk) (f : Fld) : (s.withHk x).get f = s.get f := (rfl)
@[simp] theorem State.on_withHk (x : Hk) (f : Fld) : (s.withHk x).on f = s.on f := (rfl)
@[simp] theorem State.lget_withHk (x : Hk) (f : Fld) : (s.withHk x).lget f = s.lget f := (rfl)
@[simp] theorem State.reg_withPio (x : Pio) (r : Nat) : (s.withPio x).reg r = s.reg r := (rfl)
@[simp] theorem State.get_withPio (x : Pio) (f : Fld) : (s.withPio x).get f = s.get f := (rfl)
@[simp] theorem State.on_withPio (x : Pio) (f : Fld) : (s.withPio x).on f = s.on f := (rfl)
@[simp] theorem State.lget_withPio (x : Pio) (f : Fld) : (s.withPio x).lget f = s.lget f := (rfl)
@[simp] theorem State.reg_withArcadeMem (x : List Host.Cell) (r : Nat) : (s.withArcadeMem x).reg r = s.reg r := (rfl)
@[simp] theorem State.get_withArcadeMem (x : List Host.Cell) (f : Fld) : (s.withArcadeMem x).get f = s.get f := (rfl)
@[simp] theorem State.on_withArcadeMem (x : List Host.Cell) (f : Fld) : (s.withArcadeMem x).on f = s.on f := (rfl)
@[simp] theorem State.lget_withArcadeMem (x : List Host.Cell) (f : Fld) : (s.withArcadeMem x).lget f = s.lget f := (rfl)
@[simp] theorem State.reg_withTensorMem (x : List Host.Cell) (r : Nat) : (s.withTensorMem x).reg r = s.reg r := (rfl)
@[simp] theorem State.get_withTensorMem (x : List Host.Cell) (f : Fld) : (s.withTensorMem x).get f = s.get f := (rfl)
@[simp] theorem State.on_withTensorMem (x : List Host.Cell) (f : Fld) : (s.withTensorMem x).on f = s.on f := (rfl)
@[simp] theorem State.lget_withTensorMem (x : List Host.Cell) (f : Fld) : (s.withTensorMem x).lget f = s.lget f := (rfl)

end Sys2Proof.Machine
end

