-- ==== Sys2Proof/Laws/Fields.lean ====
section
/-! SUPPORT. The laws of bit fields and of the register file: a field after a field was written. -/

namespace Sys2Proof.Machine

/-! ### Bit fields of a number -/

theorem bits_lt (x lo w : Nat) : bits x lo w < 2 ^ w := Nat.mod_lt _ (Nat.two_pow_pos w)

theorem mul_add_div_right (a b c : Nat) (h : 0 < c) : (a * c + b) / c = a + b / c := by
  rw [Nat.add_comm, Nat.add_mul_div_right _ _ h, Nat.add_comm]

/-- A number as the part above a field, the field and the part below. -/
theorem setBits_eq (x lo w v : Nat) :
    setBits x lo w v = x / 2 ^ (lo + w) * 2 ^ (lo + w) + (v % 2 ^ w) * 2 ^ lo + x % 2 ^ lo := by
  have h1 : x / 2 ^ lo / 2 ^ w = x / 2 ^ (lo + w) := by rw [Nat.div_div_eq_div_mul, Nat.pow_add]
  have h2 := Nat.div_add_mod x (2 ^ lo)
  have h3 := Nat.div_add_mod (x / 2 ^ lo) (2 ^ w)
  rw [h1] at h3
  have h4 : x = x / 2 ^ (lo + w) * 2 ^ (lo + w) + bits x lo w * 2 ^ lo + x % 2 ^ lo := by
    calc x = 2 ^ lo * (x / 2 ^ lo) + x % 2 ^ lo := h2.symm
      _ = 2 ^ lo * (2 ^ w * (x / 2 ^ (lo + w)) + x / 2 ^ lo % 2 ^ w) + x % 2 ^ lo := by rw [h3]
      _ = _ := by
        rw [Nat.mul_add, ← Nat.mul_assoc, ← Nat.pow_add, Nat.mul_comm _ (x / _), Nat.mul_comm (2 ^ lo) (_ % _)]
        rfl
  have h5 : x - bits x lo w * 2 ^ lo = x / 2 ^ (lo + w) * 2 ^ (lo + w) + x % 2 ^ lo := by omega
  rw [setBits, h5]; omega

theorem low_lt (x lo w v : Nat) : (v % 2 ^ w) * 2 ^ lo + x % 2 ^ lo < 2 ^ (lo + w) := by
  have h1 := Nat.mod_lt v (Nat.two_pow_pos w)
  have h2 := Nat.mod_lt x (Nat.two_pow_pos lo)
  have h3 : (v % 2 ^ w + 1) * 2 ^ lo ≤ 2 ^ w * 2 ^ lo := Nat.mul_le_mul_right _ h1
  rw [Nat.pow_add, Nat.mul_comm (2 ^ lo)]
  rw [Nat.add_mul] at h3; omega

theorem setBits_mod (x lo w v : Nat) : setBits x lo w v % 2 ^ lo = x % 2 ^ lo := by
  rw [setBits_eq, Nat.pow_add, Nat.mul_comm (2 ^ lo), ← Nat.mul_assoc, ← Nat.add_mul, Nat.mul_add_mod_self_right,
    Nat.mod_mod]

theorem setBits_div (x lo w v : Nat) : setBits x lo w v / 2 ^ (lo + w) = x / 2 ^ (lo + w) := by
  rw [setBits_eq, Nat.add_assoc, mul_add_div_right _ _ _ (Nat.two_pow_pos _), Nat.div_eq_of_lt (low_lt x lo w v),
    Nat.add_zero]

theorem bits_setBits_same (x lo w v : Nat) : bits (setBits x lo w v) lo w = v % 2 ^ w := by
  rw [bits, setBits_eq]
  have : x / 2 ^ (lo + w) * 2 ^ (lo + w) + v % 2 ^ w * 2 ^ lo + x % 2 ^ lo =
      (x / 2 ^ (lo + w) * 2 ^ w + v % 2 ^ w) * 2 ^ lo + x % 2 ^ lo := by
    rw [Nat.add_mul, Nat.pow_add, Nat.mul_assoc, Nat.mul_comm (2 ^ w)]
  rw [this, mul_add_div_right _ _ _ (Nat.two_pow_pos lo),
    Nat.div_eq_of_lt (Nat.mod_lt _ (Nat.two_pow_pos lo)), Nat.add_zero, Nat.mul_add_mod_self_right, Nat.mod_mod]

theorem bits_eq_of_div (x y c lo w : Nat) (h : c ≤ lo) (e : x / 2 ^ c = y / 2 ^ c) : bits x lo w = bits y lo w := by
  obtain ⟨d, rfl⟩ := Nat.exists_eq_add_of_le h
  simp only [bits, Nat.pow_add, ← Nat.div_div_eq_div_mul, e]

theorem bits_eq_of_mod (x y c lo w : Nat) (h : lo + w ≤ c) (e : x % 2 ^ c = y % 2 ^ c) : bits x lo w = bits y lo w := by
  have key : ∀ z, bits z lo w = bits (z % 2 ^ c) lo w := by
    intro z
    obtain ⟨d, rfl⟩ := Nat.exists_eq_add_of_le h
    simp only [bits]
    rw [Nat.pow_add, Nat.pow_add, Nat.mul_assoc, Nat.mod_mul, Nat.add_comm, Nat.mul_comm (2 ^ lo),
      mul_add_div_right _ _ _ (Nat.two_pow_pos lo), Nat.div_eq_of_lt (Nat.mod_lt _ (Nat.two_pow_pos lo)),
      Nat.add_zero, Nat.mod_mul, Nat.add_comm, Nat.mul_comm (2 ^ w), Nat.mul_add_mod_self_right, Nat.mod_mod]
  rw [key x, key y, e]

theorem bits_setBits_apart (x lo w v lo' w' : Nat) (h : lo' + w' ≤ lo ∨ lo + w ≤ lo') :
    bits (setBits x lo w v) lo' w' = bits x lo' w' := by
  rcases h with h | h
  · exact bits_eq_of_mod _ _ lo lo' w' h (setBits_mod x lo w v)
  · exact bits_eq_of_div _ _ (lo + w) lo' w' h (setBits_div x lo w v)

theorem setBits_lt {x lo w n : Nat} (v : Nat) (hx : x < 2 ^ n) (h : lo + w ≤ n) : setBits x lo w v < 2 ^ n := by
  have h1 := low_lt x lo w v
  have h2 : x / 2 ^ (lo + w) < 2 ^ (n - (lo + w)) := by
    rw [Nat.div_lt_iff_lt_mul (Nat.two_pow_pos _), ← Nat.pow_add]
    simpa [Nat.sub_add_cancel h] using hx
  have h3 : (x / 2 ^ (lo + w) + 1) * 2 ^ (lo + w) ≤ 2 ^ (n - (lo + w)) * 2 ^ (lo + w) := Nat.mul_le_mul_right _ h2
  rw [← Nat.pow_add, Nat.sub_add_cancel h, Nat.add_mul] at h3
  rw [setBits_eq]; omega

/-! ### Registers -/

theorem State.reg_setReg (s : State) (a : Nat) (v : Word) (b : Nat) :
    (s.setReg a v).reg b = if b = a then v else s.reg b := by
  by_cases h : b = a
  · subst h; simp [State.reg, State.setReg, Sparse.get_put_same]
  · simp [State.reg, State.setReg, Sparse.get_put_ne _ _ _ _ _ _ h, h]

@[simp] theorem State.reg_setReg_same (s : State) (a : Nat) (v : Word) : (s.setReg a v).reg a = v := by
  simp [State.reg_setReg]

theorem State.reg_setReg_ne (s : State) (a : Nat) (v : Word) {b : Nat} (h : b ≠ a) : (s.setReg a v).reg b = s.reg b := by
  simp [State.reg_setReg, h]

theorem State.liveReg_setLive (s : State) (a : Nat) (v : Word) (b : Nat) :
    (s.setLive a v).liveReg b = if b = a then v else s.liveReg b := by
  by_cases h : b = a
  · subst h; simp [State.liveReg, State.setLive, Sparse.get_put_same]
  · simp [State.liveReg, State.setLive, Sparse.get_put_ne _ _ _ _ _ _ h, h]

/-- Only the listed values of registers are read. -/
theorem State.reg_congr {s t : State} (h : t.regs = s.regs) (a : Nat) : t.reg a = s.reg a := by simp [State.reg, h]

theorem State.get_congr {s t : State} (h : t.regs = s.regs) (f : Fld) : t.get f = s.get f := by
  simp [State.get, State.reg_congr h]

/-! ### Fields -/

/-- Two fields that share no bit. -/
def Fld.apart (f g : Fld) : Prop := f.addr ≠ g.addr ∨ g.lo + g.w ≤ f.lo ∨ f.lo + f.w ≤ g.lo

theorem State.get_lt (s : State) (f : Fld) : s.get f < 2 ^ f.w := bits_lt _ _ _

theorem State.reg_put_ne (s : State) (f : Fld) (v : Nat) {a : Nat} (h : a ≠ f.addr) : (s.put f v).reg a = s.reg a :=
  s.reg_setReg_ne _ _ h

theorem State.reg_put_toNat (s : State) (f : Fld) (v : Nat) (h : f.lo + f.w ≤ 32) :
    ((s.put f v).reg f.addr).toNat = setBits (s.reg f.addr).toNat f.lo f.w v := by
  simp only [State.put, State.reg_setReg_same, BitVec.toNat_ofNat]
  exact Nat.mod_eq_of_lt (setBits_lt v (s.reg f.addr).isLt h)

/-- A field reads back the value written, cut to its width. -/
theorem State.get_put_same (s : State) (f : Fld) (v : Nat) (h : f.lo + f.w ≤ 32) : (s.put f v).get f = v % 2 ^ f.w := by
  rw [State.get, s.reg_put_toNat f v h, bits_setBits_same]

/-- Writing a field leaves every field that shares no bit with it. -/
theorem State.get_put_apart (s : State) {f g : Fld} (v : Nat) (hf : f.lo + f.w ≤ 32) (h : f.apart g) :
    (s.put f v).get g = s.get g := by
  by_cases ha : f.addr = g.addr
  · rw [State.get, ← ha, s.reg_put_toNat f v hf, State.get, ← ha,
      bits_setBits_apart _ _ _ _ _ _ (h.resolve_left (fun n => n ha))]
  · rw [State.get, s.reg_put_ne f v (Ne.symm ha), State.get]

theorem State.get_put_addr (s : State) {f g : Fld} (v : Nat) (h : g.addr ≠ f.addr) : (s.put f v).get g = s.get g := by
  rw [State.get, s.reg_put_ne f v h, State.get]

/-- A write of a register whole, read field by field. -/
theorem State.get_setReg_same (s : State) (f : Fld) (v : Word) : (s.setReg f.addr v).get f = bits v.toNat f.lo f.w := by
  simp [State.get]

theorem State.get_setReg_ne (s : State) (a : Nat) (f : Fld) (v : Word) (h : f.addr ≠ a) :
    (s.setReg a v).get f = s.get f := by simp [State.get, State.reg_setReg_ne _ _ _ h]

/-- A pair of registers reads back the 64 bits stored in it. -/
theorem State.get64_put64 (s : State) (lo hi v : Nat) (h : lo ≠ hi) : (s.put64 lo hi v).get64 lo hi = v % 2 ^ 64 := by
  simp only [State.get64, State.put64, State.reg_setReg_same, State.reg_setReg_ne _ _ _ h, BitVec.toNat_ofNat]
  omega

theorem State.reg_put64_ne (s : State) {lo hi a : Nat} (v : Nat) (h : a ≠ lo) (g : a ≠ hi) :
    (s.put64 lo hi v).reg a = s.reg a := by
  rw [State.put64, State.reg_setReg_ne _ _ _ g, State.reg_setReg_ne _ _ _ h]

theorem State.get_put64_ne (s : State) {lo hi : Nat} {f : Fld} (v : Nat) (h : f.addr ≠ lo) (g : f.addr ≠ hi) :
    (s.put64 lo hi v).get f = s.get f := by rw [State.get, s.reg_put64_ne v h g, State.get]

/-! ### Counts and interrupt bits -/

theorem satAdd_lt (w x n : Nat) : satAdd w x n < 2 ^ w := by
  have := Nat.two_pow_pos w
  simp only [satAdd]; omega

/-- A saturating count, advanced. -/
theorem State.get_bump_same (s : State) (f : Fld) (n : Nat) (h : f.lo + f.w ≤ 32) :
    (s.bump f n).get f = satAdd f.w (s.get f) n := by
  rw [State.bump, s.get_put_same f _ h, Nat.mod_eq_of_lt (satAdd_lt _ _ _)]

theorem State.get_bump_apart (s : State) {f g : Fld} (n : Nat) (hf : f.lo + f.w ≤ 32) (h : f.apart g) :
    (s.bump f n).get g = s.get g := s.get_put_apart _ hf h

/-- A wrapping count, advanced. -/
theorem State.get_bumpWrap_same (s : State) (f : Fld) (n : Nat) (h : f.lo + f.w ≤ 32) :
    (s.bumpWrap f n).get f = (s.get f + n) % 2 ^ f.w := s.get_put_same f _ h

theorem State.get_bumpWrap_apart (s : State) {f g : Fld} (n : Nat) (hf : f.lo + f.w ≤ 32) (h : f.apart g) :
    (s.bumpWrap f n).get g = s.get g := s.get_put_apart _ hf h

/-- Bits set by hardware join those that were set. -/
theorem State.get_hwSet_same (s : State) (f : Fld) (v : Nat) (h : f.lo + f.w ≤ 32) :
    (s.hwSet f v).get f = lor (s.get f) v % 2 ^ f.w := by
  rw [State.get_congr (s := s.put f (lor (s.get f) v)) (t := s.hwSet f v) rfl, s.get_put_same f _ h]

theorem State.get_hwSet_apart (s : State) {f g : Fld} (v : Nat) (hf : f.lo + f.w ≤ 32) (h : f.apart g) :
    (s.hwSet f v).get g = s.get g := by
  rw [State.get_congr (s := s.put f (lor (s.get f) v)) (t := s.hwSet f v) rfl, s.get_put_apart _ hf h]

/-- A one-bit interrupt is 1 once hardware has set it. -/
theorem State.on_hwSet (s : State) (f : Fld) (h : f.lo + f.w ≤ 32) (hw : f.w = 1) : (s.hwSet f 1).on f = true := by
  have := s.get_hwSet_same f 1 h
  have hlt := s.get_lt f
  rw [hw] at this hlt
  have h2 : s.get f = 0 ∨ s.get f = 1 := by omega
  simp only [State.on, this]
  rcases h2 with e | e <;> rw [e] <;> decide

end Sys2Proof.Machine
end

