-- ==== Sys2Proof/Laws/Frame.lean ====
section
/-! SUPPORT. What the shared operations leave alone, one lemma per operation, and how frames compose. -/

namespace Sys2Proof.Machine

variable {s t u : State} {P Q : List Part} {B C : List Nat}

/-! ### Composition -/

@[simp] theorem Part.same_refl (p : Part) (s : State) : p.same s s := by cases p <;> rfl

theorem Part.same_trans {p : Part} (h : p.same s t) (g : p.same t u) : p.same s u := by
  cases p <;> exact Eq.trans g h

theorem keeps_refl (s : State) (P : List Part) (B : List Nat) : s.keeps s P B := ⟨fun p _ => p.same_refl s, fun _ _ => rfl⟩

theorem keeps_trans (h : s.keeps t P B) (g : t.keeps u P B) : s.keeps u P B :=
  ⟨fun p hp => Part.same_trans (h.1 p hp) (g.1 p hp), fun a ha => (g.2 a ha).trans (h.2 a ha)⟩

theorem keeps_mono (h : s.keeps t P B) (hP : ∀ p ∈ P, p ∈ Q) (hB : ∀ b ∈ B, b ∈ C) : s.keeps t Q C :=
  ⟨fun p hp => h.1 p fun x => hp (hP p x), fun a ha => h.2 a fun x => ha (hB _ x)⟩

/-- A field of a block that is left alone. -/
theorem keeps_get (h : s.keeps t P B) {f : Fld} {b : Nat} (e : f.addr / 0x10000 = b) (hb : b ∉ B) :
    t.get f = s.get f := by simp only [State.get, h.2 f.addr (e ▸ hb)]

/-- An update of listed parts that leaves the register file. -/
theorem keeps_of_parts (h : ∀ p, p ∉ P → p.same s t) (hr : t.regs = s.regs) : s.keeps t P B :=
  ⟨h, fun a _ => State.reg_congr hr a⟩

/-- A fold of operations that each keep the rest. -/
theorem keeps_foldl {α : Type} {f : State → α → State} (l : List α) (h : ∀ s, ∀ x ∈ l, State.keeps s (f s x) P B)
    (s : State) : s.keeps (l.foldl f s) P B := by
  induction l generalizing s with
  | nil => exact keeps_refl s P B
  | cons x l ih =>
    exact keeps_trans (h s x (by simp)) (ih (fun s y hy => h s y (by simp [hy])) (f s x))

theorem keeps_ite {c : Prop} [Decidable c] (ht : c → s.keeps t P B) (hu : ¬c → s.keeps u P B) :
    s.keeps (if c then t else u) P B := by
  split
  · exact ht ‹_›
  · exact hu ‹_›

/-! ### The update of one part -/

theorem keeps_withCycle (s : State) (x : Nat) (h : .cycle ∈ P) : s.keeps (s.withCycle x) P B :=
  ⟨fun p hp => by cases p <;> first | rfl | exact absurd h hp, fun _ _ => rfl⟩
theorem keeps_withFresh (s : State) (x : Nat) (h : .fresh ∈ P) : s.keeps (s.withFresh x) P B :=
  ⟨fun p hp => by cases p <;> first | rfl | exact absurd h hp, fun _ _ => rfl⟩
theorem keeps_withLive (s : State) (x : List (Nat × Word)) (h : .live ∈ P) : s.keeps (s.withLive x) P B :=
  ⟨fun p hp => by cases p <;> first | rfl | exact absurd h hp, fun _ _ => rfl⟩
theorem keeps_withHeldOld (s : State) (x : List (Nat × Word)) (h : .heldOld ∈ P) : s.keeps (s.withHeldOld x) P B :=
  ⟨fun p hp => by cases p <;> first | rfl | exact absurd h hp, fun _ _ => rfl⟩
theorem keeps_withFreshBits (s : State) (x : List (Nat × Nat)) (h : .freshBits ∈ P) : s.keeps (s.withFreshBits x) P B :=
  ⟨fun p hp => by cases p <;> first | rfl | exact absurd h hp, fun _ _ => rfl⟩
theorem keeps_withSupply (s : State) (x : Supply) (h : .supply ∈ P) : s.keeps (s.withSupply x) P B :=
  ⟨fun p hp => by cases p <;> first | rfl | exact absurd h hp, fun _ _ => rfl⟩
theorem keeps_withClk (s : State) (x : Clocks) (h : .clk ∈ P) : s.keeps (s.withClk x) P B :=
  ⟨fun p hp => by cases p <;> first | rfl | exact absurd h hp, fun _ _ => rfl⟩
theorem keeps_withCfg (s : State) (x : Loader) (h : .cfg ∈ P) : s.keeps (s.withCfg x) P B :=
  ⟨fun p hp => by cases p <;> first | rfl | exact absurd h hp, fun _ _ => rfl⟩
theorem keeps_withBoot (s : State) (x : Boot) (h : .boot ∈ P) : s.keeps (s.withBoot x) P B :=
  ⟨fun p hp => by cases p <;> first | rfl | exact absurd h hp, fun _ _ => rfl⟩
theorem keeps_withNvm (s : State) (x : Nvm) (h : .nvm ∈ P) : s.keeps (s.withNvm x) P B :=
  ⟨fun p hp => by cases p <;> first | rfl | exact absurd h hp, fun _ _ => rfl⟩
theorem keeps_withPorts (s : State) (x : Ports) (h : .ports ∈ P) : s.keeps (s.withPorts x) P B :=
  ⟨fun p hp => by cases p <;> first | rfl | exact absurd h hp, fun _ _ => rfl⟩
theorem keeps_withPwr (s : State) (x : Power) (h : .pwr ∈ P) : s.keeps (s.withPwr x) P B :=
  ⟨fun p hp => by cases p <;> first | rfl | exact absurd h hp, fun _ _ => rfl⟩
theorem keeps_withEvf (s : State) (x : Evf) (h : .evf ∈ P) : s.keeps (s.withEvf x) P B :=
  ⟨fun p hp => by cases p <;> first | rfl | exact absurd h hp, fun _ _ => rfl⟩
theorem keeps_withTime (s : State) (x : TimeBase) (h : .time ∈ P) : s.keeps (s.withTime x) P B :=
  ⟨fun p hp => by cases p <;> first | rfl | exact absurd h hp, fun _ _ => rfl⟩
theorem keeps_withCnt (s : State) (x : Counters) (h : .cnt ∈ P) : s.keeps (s.withCnt x) P B :=
  ⟨fun p hp => by cases p <;> first | rfl | exact absurd h hp, fun _ _ => rfl⟩
theorem keeps_withSafe (s : State) (x : Safety) (h : .safe ∈ P) : s.keeps (s.withSafe x) P B :=
  ⟨fun p hp => by cases p <;> first | rfl | exact absurd h hp, fun _ _ => rfl⟩
theorem keeps_withRings (s : State) (x : List (Nat × RingSt)) (h : .rings ∈ P) : s.keeps (s.withRings x) P B :=
  ⟨fun p hp => by cases p <;> first | rfl | exact absurd h hp, fun _ _ => rfl⟩
theorem keeps_withLink (s : State) (x : LinkSt) (h : .link ∈ P) : s.keeps (s.withLink x) P B :=
  ⟨fun p hp => by cases p <;> first | rfl | exact absurd h hp, fun _ _ => rfl⟩
theorem keeps_withSht (s : State) (x : Shutter) (h : .sht ∈ P) : s.keeps (s.withSht x) P B :=
  ⟨fun p hp => by cases p <;> first | rfl | exact absurd h hp, fun _ _ => rfl⟩
theorem keeps_withRdo (s : State) (x : Readout) (h : .rdo ∈ P) : s.keeps (s.withRdo x) P B :=
  ⟨fun p hp => by cases p <;> first | rfl | exact absurd h hp, fun _ _ => rfl⟩
theorem keeps_withPipe (s : State) (x : Pipe) (h : .pipe ∈ P) : s.keeps (s.withPipe x) P B :=
  ⟨fun p hp => by cases p <;> first | rfl | exact absurd h hp, fun _ _ => rfl⟩
theorem keeps_withWins (s : State) (x : List (Nat × WinFrame)) (h : .wins ∈ P) : s.keeps (s.withWins x) P B :=
  ⟨fun p hp => by cases p <;> first | rfl | exact absurd h hp, fun _ _ => rfl⟩
theorem keeps_withArc (s : State) (x : Arcade) (h : .arc ∈ P) : s.keeps (s.withArc x) P B :=
  ⟨fun p hp => by cases p <;> first | rfl | exact absurd h hp, fun _ _ => rfl⟩
theorem keeps_withNpc (s : State) (x : Npc) (h : .npc ∈ P) : s.keeps (s.withNpc x) P B :=
  ⟨fun p hp => by cases p <;> first | rfl | exact absurd h hp, fun _ _ => rfl⟩
theorem keeps_withHk (s : State) (x : Hk) (h : .hk ∈ P) : s.keeps (s.withHk x) P B :=
  ⟨fun p hp => by cases p <;> first | rfl | exact absurd h hp, fun _ _ => rfl⟩
theorem keeps_withPio (s : State) (x : Pio) (h : .pio ∈ P) : s.keeps (s.withPio x) P B :=
  ⟨fun p hp => by cases p <;> first | rfl | exact absurd h hp, fun _ _ => rfl⟩
theorem keeps_withArcadeMem (s : State) (x : List Host.Cell) (h : .arcadeMem ∈ P) : s.keeps (s.withArcadeMem x) P B :=
  ⟨fun p hp => by cases p <;> first | rfl | exact absurd h hp, fun _ _ => rfl⟩
theorem keeps_withTensorMem (s : State) (x : List Host.Cell) (h : .tensorMem ∈ P) : s.keeps (s.withTensorMem x) P B :=
  ⟨fun p hp => by cases p <;> first | rfl | exact absurd h hp, fun _ _ => rfl⟩

/-! ### Registers -/

theorem setReg_keeps (s : State) {a b : Nat} (v : Word) (e : a / 0x10000 = b) (h : b ∈ B) :
    s.keeps (s.setReg a v) P B :=
  ⟨fun p _ => by cases p <;> rfl, fun c hc => s.reg_setReg_ne a v fun x => hc (x ▸ e ▸ h)⟩

theorem put_keeps (s : State) {f : Fld} {b : Nat} (v : Nat) (e : f.addr / 0x10000 = b) (h : b ∈ B) :
    s.keeps (s.put f v) P B := setReg_keeps s _ e h

theorem bump_keeps (s : State) {f : Fld} {b : Nat} (n : Nat) (e : f.addr / 0x10000 = b) (h : b ∈ B) :
    s.keeps (s.bump f n) P B := put_keeps s _ e h

theorem bumpWrap_keeps (s : State) {f : Fld} {b : Nat} (n : Nat) (e : f.addr / 0x10000 = b) (h : b ∈ B) :
    s.keeps (s.bumpWrap f n) P B := put_keeps s _ e h

theorem put64_keeps (s : State) {a c b : Nat} (v : Nat) (ha : a / 0x10000 = b) (hc : c / 0x10000 = b) (h : b ∈ B) :
    s.keeps (s.put64 a c v) P B := keeps_trans (setReg_keeps s _ ha h) (setReg_keeps _ _ hc h)

theorem hwSet_keeps (s : State) {f : Fld} {b : Nat} (v : Nat) (e : f.addr / 0x10000 = b) (h : b ∈ B)
    (hp : .freshBits ∈ P) : s.keeps (s.hwSet f v) P B := keeps_trans (put_keeps s _ e h) (keeps_withFreshBits _ _ hp)

/-! ### Counters and sources -/

theorem countOne_keeps (s : State) {k : Nat} (hk : k < 32) (h : bCNT ∈ B) (h1 : .cnt ∈ P) (h2 : .freshBits ∈ P) :
    s.keeps (s.countOne k) P B := by
  have a0 : aCNT_LIVE k 0 / 0x10000 = bCNT := by simp only [aCNT_LIVE, bCNT]; omega
  have a1 : aCNT_LIVE k 1 / 0x10000 = bCNT := by simp only [aCNT_LIVE, bCNT]; omega
  have step := keeps_trans (put64_keeps (P := P) s ((s.counter k + 1) % 2 ^ 48) a0 a1 h)
    (keeps_withCnt (s.setCounter k (s.counter k + 1)) { s.cnt with counted := k :: s.cnt.counted } h1)
  unfold State.countOne
  refine keeps_ite (fun _ => keeps_refl s P B) fun _ => ?_
  refine keeps_ite (fun _ => ?_) fun _ => step
  exact keeps_trans step (keeps_trans (hwSet_keeps _ _ (by rfl) h h2) (hwSet_keeps _ _ (by rfl) h h2))

theorem countWhere_keeps (s : State) (src : Nat) (e : Nat → Bool) (h : bCNT ∈ B) (h1 : .cnt ∈ P) (h2 : .freshBits ∈ P) :
    s.keeps (s.countWhere src e) P B :=
  keeps_foldl _ (fun s _ hk => keeps_ite
    (fun _ => countOne_keeps s (List.mem_range.1 hk) h h1 h2) fun _ => keeps_refl s P B) s

theorem count_keeps (s : State) (src : Nat) (h : bCNT ∈ B) (h1 : .cnt ∈ P) (h2 : .freshBits ∈ P) :
    s.keeps (s.count src) P B := countWhere_keeps s src _ h h1 h2

theorem pulse_keeps (s : State) (src : Nat) (h : bCNT ∈ B) (h1 : .cnt ∈ P) (h2 : .freshBits ∈ P) (h3 : .evf ∈ P) :
    s.keeps (s.pulse src) P B :=
  keeps_ite (fun _ => keeps_withEvf s _ h3) fun _ => keeps_trans (keeps_withEvf s _ h3) (count_keeps _ src h h1 h2)

theorem setLevel_keeps (s : State) {src : Nat} (v : Bool) (stamp : Nat) (i : Bool) (hs : src < 128) (h0 : bEVF ∈ B)
    (h : bCNT ∈ B) (h1 : .cnt ∈ P) (h2 : .freshBits ∈ P) (h3 : .evf ∈ P) :
    s.keeps (s.setLevel src v stamp i) P B := by
  unfold State.setLevel
  refine keeps_ite (fun _ => keeps_refl s P B) fun _ => ?_
  have a : (EVF_SRC_LEVEL_level (src / 32)).addr / 0x10000 = bEVF := by
    simp only [EVF_SRC_LEVEL_level, aEVF_SRC_LEVEL, bEVF]; omega
  exact keeps_trans (put_keeps s _ a h0) (keeps_trans (keeps_withEvf _ _ h3) (countWhere_keeps _ src _ h h1 h2))

theorem arrive_keeps (s : State) {src : Nat} (v : Bool) (hs : src < 128) (h0 : bEVF ∈ B) (h : bCNT ∈ B) (h1 : .cnt ∈ P)
    (h2 : .freshBits ∈ P) (h3 : .evf ∈ P) : s.keeps (s.arrive src v) P B := setLevel_keeps s v _ _ hs h0 h h1 h2 h3

/-! ### Rings -/

theorem refill_keeps (s : State) {n : Nat} (hn : n < 256) (h : bRING ∈ B) (h2 : .freshBits ∈ P) :
    s.keeps (s.refill n) P B := by
  have a : (RING_FILL_now_kib n).addr / 0x10000 = bRING := by simp only [RING_FILL_now_kib, aRING_FILL, bRING]; omega
  have b : (RING_FILL_peak_kib n).addr / 0x10000 = bRING := by simp only [RING_FILL_peak_kib, aRING_FILL, bRING]; omega
  have c : (RING_FILL_SRC_ring (n / 32)).addr / 0x10000 = bRING := by
    simp only [RING_FILL_SRC_ring, aRING_FILL_SRC, bRING]; omega
  have base := keeps_trans (put_keeps (P := P) s (ceilDiv (s.spoolUsed n) 1024) a h)
    (put_keeps _ (max (ceilDiv (s.spoolUsed n) 1024) (s.get (RING_FILL_peak_kib n))) b h)
  unfold State.refill
  exact keeps_ite (fun _ => keeps_trans base (keeps_trans (hwSet_keeps _ _ (by rfl) h h2) (hwSet_keeps _ _ c h h2))) fun _ => base

theorem setRing_keeps (s : State) (n : Nat) (r : RingSt) (h : .rings ∈ P) : s.keeps (s.setRing n r) P B :=
  keeps_withRings s _ h

/-- Building a packet changes its ring's spool and registers only. -/
theorem build_keeps (s : State) {n : Nat} (type pflags frame index : Nat) (payload : List Byte) (hn : n < 256)
    (h : bRING ∈ B) (h1 : .rings ∈ P) (h2 : .freshBits ∈ P) :
    s.keeps (s.build n type pflags frame index payload) P B := by
  have a : (RING_SEQ_next n).addr / 0x10000 = bRING := by simp only [RING_SEQ_next, aRING_SEQ, bRING]; omega
  have b : (RING_LAST_FRAME_frame n).addr / 0x10000 = bRING := by
    simp only [RING_LAST_FRAME_frame, aRING_LAST_FRAME, bRING]; omega
  exact keeps_trans (setRing_keeps s n _ h1) (keeps_trans (bumpWrap_keeps _ _ a h)
    (keeps_trans (put_keeps _ _ b h) (refill_keeps _ hn h h2)))

theorem buildCounted_keeps (s : State) {n : Nat} (type : Nat) (payload : List Byte) (hn : n < 256)
    (h : bRING ∈ B) (h1 : .rings ∈ P) (h2 : .freshBits ∈ P) : s.keeps (s.buildCounted n type payload) P B :=
  keeps_trans (build_keeps s type 0 _ _ payload hn h h1 h2) (setRing_keeps _ n _ h1)

theorem buildFront_keeps (s : State) {n : Nat} (type : Nat) (payload : List Byte) (hn : n < 256)
    (h : bRING ∈ B) (h1 : .rings ∈ P) (h2 : .freshBits ∈ P) : s.keeps (s.buildFront n type payload) P B := by
  have a : (RING_SEQ_next n).addr / 0x10000 = bRING := by simp only [RING_SEQ_next, aRING_SEQ, bRING]; omega
  have b : (RING_LAST_FRAME_frame n).addr / 0x10000 = bRING := by
    simp only [RING_LAST_FRAME_frame, aRING_LAST_FRAME, bRING]; omega
  exact keeps_trans (setRing_keeps s n _ h1) (keeps_trans (bumpWrap_keeps _ _ a h)
    (keeps_trans (put_keeps _ _ b h) (refill_keeps _ hn h h2)))

/-! ### The event log -/

theorem showLast_keeps (s : State) (e : LogEntry) (h : bSAFE ∈ B) : s.keeps (s.showLast e) P B := by
  refine keeps_foldl _ (fun s p hp => setReg_keeps s _ (b := bSAFE) ?_ h) s
  have hw : p.2 < 8 := by simpa using (List.of_mem_zip hp).2
  simp only [aSAFE_LOG_LAST, bSAFE]; omega

theorem logPut_keeps (s : State) (e : LogEntry) (h : bSAFE ∈ B) (h1 : .safe ∈ P) : s.keeps (s.logPut e) P B :=
  keeps_trans (keeps_withSafe s _ h1) (keeps_trans (put_keeps _ _ (by rfl) h) (showLast_keeps _ e h))

theorem logFlush_keeps (s : State) (h : bSAFE ∈ B) (hr : bRING ∈ B) (h1 : .safe ∈ P) (h2 : .rings ∈ P)
    (h3 : .freshBits ∈ P) : s.keeps s.logFlush P B := by
  unfold State.logFlush State.logPacket
  refine keeps_ite (fun _ => keeps_ite (fun _ => keeps_refl s P B) fun _ => ?_) fun _ => keeps_refl s P B
  exact keeps_trans (keeps_withSafe s _ h1) (keeps_trans (put_keeps _ _ (by rfl) h) (buildCounted_keeps _ 7 _ (by decide) hr h2 h3))

/-- The event log changes the SAFE block, and ring 1 where a packet leaves. -/
theorem log_keeps (s : State) (e : LogEntry) (h : bSAFE ∈ B) (hr : bRING ∈ B) (h1 : .safe ∈ P) (h2 : .rings ∈ P)
    (h3 : .freshBits ∈ P) : s.keeps (s.log e) P B := by
  have lose : ∀ s : State, s.keeps (((s.withSafe { s.safe with
      lostSince := satAdd 16 s.safe.lostSince 1, lossPending := true }).bump SAFE_LOG_STATUS_lost).hwSet SAFE_IRQ_STAT_log_lost) P B := fun s =>
    keeps_trans (keeps_withSafe s _ h1) (keeps_trans (bump_keeps _ _ (by rfl) h) (hwSet_keeps _ _ (by rfl) h h3))
  have app : ∀ s : State, s.keeps ((s.logPut e).logFlush) P B := fun s =>
    keeps_trans (logPut_keeps s e h h1) (logFlush_keeps _ h hr h1 h2 h3)
  unfold State.log
  refine keeps_ite (fun _ => lose s) fun _ => keeps_ite (fun _ => ?_) fun _ => app s
  have first := keeps_trans (keeps_withSafe (B := B) s { s.safe with lossPending := false } h1)
    (logPut_keeps _ { cause := 0x95, kind := 0, block := 19, args := [], stamp := s.now } h h1)
  exact keeps_ite (fun _ => keeps_trans first (lose _)) fun _ => keeps_trans first (app _)

theorem report_keeps (s : State) (cause block : Nat) (args : List Nat) (h : bSAFE ∈ B) (hr : bRING ∈ B) (h1 : .safe ∈ P)
    (h2 : .rings ∈ P) (h3 : .freshBits ∈ P) : s.keeps (s.report cause block args) P B := log_keeps s _ h hr h1 h2 h3

/-! ### FAULTB -/

theorem showLevel_keeps (s : State) (h : bSAFE ∈ B) (h1 : .safe ∈ P) : s.keeps s.showLevel P B := by
  unfold State.showLevel
  refine keeps_ite (fun _ => ?_) fun _ => keeps_ite (fun _ => ?_) fun _ => put_keeps s _ (by rfl) h
  · exact keeps_trans (put_keeps s _ (by rfl) h) (keeps_withSafe _ _ h1)
  · exact keeps_trans (put_keeps s _ (by rfl) h) (keeps_withSafe _ _ h1)

theorem setFault_keeps (s : State) (m : Nat) (h : bSAFE ∈ B) (h1 : .safe ∈ P) (h3 : .freshBits ∈ P) :
    s.keeps (s.setFault m) P B := by
  have hw : ∀ (s : State) f v, f.addr / 0x10000 = bSAFE → s.keeps (s.hwSet f v) P B := fun s f v e =>
    hwSet_keeps s v e h h3
  unfold State.setFault
  refine keeps_trans ?_ (showLevel_keeps _ h h1)
  have a := keeps_trans (hw s SAFE_FAULT_STAT_fault (bits m 0 8) rfl) (hw _ SAFE_FAULT_STAT_warn (bits m 16 6) rfl)
  have b := keeps_trans a (keeps_ite (c := bits (andNot m (s.reg aSAFE_FAULT_STAT).toNat) 0 8 ≠ 0)
    (fun _ => hw _ SAFE_IRQ_STAT_fault 1 rfl) fun _ => keeps_refl _ P B)
  exact keeps_trans b (keeps_ite (fun _ => hw _ SAFE_IRQ_STAT_warning 1 rfl) fun _ => keeps_refl _ P B)

theorem refault_keeps (s : State) (h : bSAFE ∈ B) (h1 : .safe ∈ P) (h3 : .freshBits ∈ P) : s.keeps s.refault P B :=
  setFault_keeps s _ h h1 h3

/-! ### Tasks -/

theorem coalesceCount_addr {t : Nat} (ht : t < 64) : (coalesceCount t).addr / 0x10000 = bEVF := by
  unfold coalesceCount
  split
  · simp only [EVF_COALESCE_lo, aEVF_COALESCE, bEVF]; omega
  · simp only [EVF_COALESCE_hi, aEVF_COALESCE, bEVF]; omega

theorem coalesce_keeps (s : State) {n : Nat} (rs : List Request) (hn : n < 64) (he : bEVF ∈ B) (hc : bCNT ∈ B)
    (h : bSAFE ∈ B) (hr : bRING ∈ B) (p0 : .evf ∈ P) (pc : .cnt ∈ P) (h1 : .safe ∈ P) (h2 : .rings ∈ P)
    (h3 : .freshBits ∈ P) : s.keeps (s.coalesce n rs) P B := by
  unfold State.coalesce
  have a : ∀ x : Evf, s.keeps (s.withEvf x) P B := fun x => keeps_withEvf s x p0
  refine keeps_ite (fun _ => a _) fun _ => ?_
  refine keeps_trans ?_ (keeps_foldl rs (fun s r _ => log_keeps s _ h hr h1 h2 h3) _)
  exact keeps_trans (a _) (keeps_trans (bump_keeps _ _ (coalesceCount_addr hn) he)
    (keeps_trans (hwSet_keeps _ _ (by rfl) he h3) (count_keeps _ _ hc pc h3)))

/-- Serving a task keeps what its action keeps, beside the coalescing and its log. -/
theorem serve_keeps (s : State) {n : Nat} {f : State → Nat → Bool → State} (hn : n < 64) (he : bEVF ∈ B) (hc : bCNT ∈ B)
    (h : bSAFE ∈ B) (hr : bRING ∈ B) (p0 : .evf ∈ P) (pc : .cnt ∈ P) (h1 : .safe ∈ P) (h2 : .rings ∈ P)
    (h3 : .freshBits ∈ P) (hf : ∀ s st b, State.keeps s (f s st b) P B) : s.keeps (s.serve n f) P B := by
  unfold State.serve
  split
  · exact keeps_refl s P B
  · exact keeps_trans (coalesce_keeps s _ hn he hc h hr p0 pc h1 h2 h3) (hf _ _ _)

end Sys2Proof.Machine
end

