-- ==== Sys2Proof/Laws/PerInstr.lean ====
section
/-! SUPPORT. A statement per command: each command stands in exactly one of the three families whose frames Obligations.lean
states, so that no command is without a frame. -/

namespace Sys2Proof.Laws.Framed

open Sys2Proof.Machine

/-- The command stands in exactly one of the three families of frames. -/
def Statement (i : Instr) : Prop :=
  [i.controlFootprint.isSome, i.imagerFootprint.isSome, i.edgeFootprint.isSome].count true = 1

theorem registerWrite : ∀ x y z, Statement (.registerWrite x y z) := fun _ _ _ => rfl
theorem coldReset : ∀ x, Statement (.coldReset x) := fun _ => rfl
theorem supplyFailureReset : ∀ x y, Statement (.supplyFailureReset x y) := fun _ _ => rfl
theorem vddio1ResetLevel : ∀ x, Statement (.vddio1ResetLevel x) := fun _ => rfl
theorem supplyGlitch : ∀ x, Statement (.supplyGlitch x) := fun _ => rfl
theorem brownoutEpisodeStart : ∀ x y, Statement (.brownoutEpisodeStart x y) := fun _ _ => rfl
theorem brownoutEpisodeEnd : ∀ x y, Statement (.brownoutEpisodeEnd x y) := fun _ _ => rfl
theorem brownoutLimitExpiry : ∀ x, Statement (.brownoutLimitExpiry x) := fun _ => rfl
theorem resetbReset : ∀ x, Statement (.resetbReset x) := fun _ => rfl
theorem testenHigh : ∀ x, Statement (.testenHigh x) := fun _ => rfl
theorem extest : Statement .extest := rfl
theorem samplePreload : ∀ x y z, Statement (.samplePreload x y z) := fun _ _ _ => rfl
theorem bypass : ∀ x y z, Statement (.bypass x y z) := fun _ _ _ => rfl
theorem testAccessPortReset : ∀ x, Statement (.testAccessPortReset x) := fun _ => rfl
theorem softwareReset : ∀ x, Statement (.softwareReset x) := fun _ => rfl
theorem bootSequence : ∀ x, Statement (.bootSequence x) := fun _ => rfl
theorem flashBusyTimeout : Statement .flashBusyTimeout := rfl
theorem referenceWaitTimeout : Statement .referenceWaitTimeout := rfl
theorem lockTimeout : ∀ x, Statement (.lockTimeout x) := fun _ => rfl
theorem bootWatchdogExpiry : Statement .bootWatchdogExpiry := rfl
theorem bootRetry : Statement .bootRetry := rfl
theorem nvmUnlock : ∀ x, Statement (.nvmUnlock x) := fun _ => rfl
theorem nvmRead : Statement .nvmRead := rfl
theorem nvmProgram : Statement .nvmProgram := rfl
theorem nvmEraseSector : Statement .nvmEraseSector := rfl
theorem storeSeeds : Statement .storeSeeds := rfl
theorem nvmCommandDone : ∀ x, Statement (.nvmCommandDone x) := fun _ => rfl
theorem synLock : ∀ x, Statement (.synLock x) := fun _ => rfl
theorem lossOfLock : ∀ x, Statement (.lossOfLock x) := fun _ => rfl
theorem refLost : Statement .refLost := rfl
theorem refReturn : Statement .refReturn := rfl
theorem autoRelockAttempt : ∀ x, Statement (.autoRelockAttempt x) := fun _ => rfl
theorem refMeasUpdate : ∀ x, Statement (.refMeasUpdate x) := fun _ => rfl
theorem commit : ∀ x, Statement (.commit x) := fun _ => rfl
theorem commitAtBeat : ∀ x, Statement (.commitAtBeat x) := fun _ => rfl
theorem relock : ∀ x, Statement (.relock x) := fun _ => rfl
theorem singleUpsetCorrected : ∀ x, Statement (.singleUpsetCorrected x) := fun _ => rfl
theorem voteFailure : ∀ x y z, Statement (.voteFailure x y z) := fun _ _ _ => rfl
theorem stageData : ∀ x, Statement (.stageData x) := fun _ => rfl
theorem startFull : Statement .startFull := rfl
theorem startOverlay : Statement .startOverlay := rfl
theorem abort : Statement .abort := rfl
theorem loadChecksComplete : ∀ x y, Statement (.loadChecksComplete x y) := fun _ _ => rfl
theorem cmdNop : ∀ x, Statement (.cmdNop x) := fun _ => rfl
theorem cmdWriteIncrementing : ∀ x, Statement (.cmdWriteIncrementing x) := fun _ => rfl
theorem cmdWriteFixed : ∀ x, Statement (.cmdWriteFixed x) := fun _ => rfl
theorem cmdReadIncrementing : ∀ x, Statement (.cmdReadIncrementing x) := fun _ => rfl
theorem cmdReadFixed : ∀ x, Statement (.cmdReadFixed x) := fun _ => rfl
theorem frameTruncated : ∀ x y z, Statement (.frameTruncated x y z) := fun _ _ _ => rfl
theorem i2cStatus : Statement .i2cStatus := rfl
theorem cmd : ∀ x, Statement (.cmd x) := fun _ => rfl
theorem ctlLockTake : ∀ x y, Statement (.ctlLockTake x y) := fun _ _ => rfl
theorem ctlLockFree : ∀ x y, Statement (.ctlLockFree x y) := fun _ _ => rfl
theorem ctlLockBreak : ∀ x y, Statement (.ctlLockBreak x y) := fun _ _ => rfl
theorem irqbRetrigger : Statement .irqbRetrigger := rfl
theorem runTakeUp : Statement .runTakeUp := rfl
theorem runStop : Statement .runStop := rfl
theorem readoutStart : Statement .readoutStart := rfl
theorem readoutEnd : Statement .readoutEnd := rfl
theorem rowSlot : ∀ x, Statement (.rowSlot x) := fun _ => rfl
theorem subPulse : ∀ x, Statement (.subPulse x) := fun _ => rfl
theorem globalIntegrationStart : Statement .globalIntegrationStart := rfl
theorem transferT1 : Statement .transferT1 := rfl
theorem transferT2 : Statement .transferT2 := rfl
theorem triggerPinEdge : ∀ x y z u, Statement (.triggerPinEdge x y z u) := fun _ _ _ _ => rfl
theorem badgerSelfTest : ∀ x, Statement (.badgerSelfTest x) := fun _ => rfl
theorem badgerMismatch : ∀ x, Statement (.badgerMismatch x) := fun _ => rfl
theorem rdoRetire : ∀ x, Statement (.rdoRetire x) := fun _ => rfl
theorem calSnapshot : Statement .calSnapshot := rfl
theorem windowRowAvailable : ∀ x y z, Statement (.windowRowAvailable x y z) := fun _ _ _ => rfl
theorem tapComplete : ∀ x y, Statement (.tapComplete x y) := fun _ _ => rfl
theorem runStart : ∀ x, Statement (.runStart x) := fun _ => rfl
theorem runDeadline : ∀ x, Statement (.runDeadline x) := fun _ => rfl
theorem npcNop : ∀ x, Statement (.npcNop x) := fun _ => rfl
theorem setmode : ∀ x, Statement (.setmode x) := fun _ => rfl
theorem salu : ∀ x, Statement (.salu x) := fun _ => rfl
theorem salui : ∀ x, Statement (.salui x) := fun _ => rfl
theorem get : ∀ x, Statement (.get x) := fun _ => rfl
theorem ld : ∀ x, Statement (.ld x) := fun _ => rfl
theorem st : ∀ x, Statement (.st x) := fun _ => rfl
theorem loop : ∀ x, Statement (.loop x) := fun _ => rfl
theorem br : ∀ x, Statement (.br x) := fun _ => rfl
theorem npcEnd : ∀ x, Statement (.npcEnd x) := fun _ => rfl
theorem mmul : ∀ x, Statement (.mmul x) := fun _ => rfl
theorem post : ∀ x, Statement (.post x) := fun _ => rfl
theorem discard : ∀ x, Statement (.discard x) := fun _ => rfl
theorem tload : ∀ x, Statement (.tload x) := fun _ => rfl
theorem emit : ∀ x, Statement (.emit x) := fun _ => rfl
theorem waitev : ∀ x, Statement (.waitev x) := fun _ => rfl
theorem sigev : ∀ x, Statement (.sigev x) := fun _ => rfl
theorem resume : Statement .resume := rfl
theorem npcDbgEnd : Statement .npcDbgEnd := rfl
theorem tensorWrite : ∀ x y, Statement (.tensorWrite x y) := fun _ _ => rfl
theorem triggerUnitFire : ∀ x, Statement (.triggerUnitFire x) := fun _ => rfl
theorem forcedTrigger : ∀ x, Statement (.forcedTrigger x) := fun _ => rfl
theorem holdoffExpiry : ∀ x, Statement (.holdoffExpiry x) := fun _ => rfl
theorem triggerUnitArm : ∀ x y, Statement (.triggerUnitArm x y) := fun _ _ => rfl
theorem triggerUnitConfigWrite : ∀ x y z, Statement (.triggerUnitConfigWrite x y z) := fun _ _ _ => rfl
theorem directRouteRequest : ∀ x, Statement (.directRouteRequest x) := fun _ => rfl
theorem startAGlobalExposure : ∀ x, Statement (.startAGlobalExposure x) := fun _ => rfl
theorem startAFrame : ∀ x, Statement (.startAFrame x) := fun _ => rfl
theorem freezeTheArcade : Statement .freezeTheArcade := rfl
theorem rearmTheArcadeRecorder : Statement .rearmTheArcadeRecorder := rfl
theorem startAConversion : ∀ x, Statement (.startAConversion x) := fun _ => rfl
theorem markMetadata : ∀ x, Statement (.markMetadata x) := fun _ => rfl
theorem raiseInterrupt : ∀ x, Statement (.raiseInterrupt x) := fun _ => rfl
theorem driveSyncFire : ∀ x, Statement (.driveSyncFire x) := fun _ => rfl
theorem driveSyncArm : Statement .driveSyncArm := rfl
theorem releaseSyncArm : Statement .releaseSyncArm := rfl
theorem capture : Statement .capture := rfl
theorem signalPinEngine : ∀ x, Statement (.signalPinEngine x) := fun _ => rfl
theorem setComputeFlag : ∀ x, Statement (.setComputeFlag x) := fun _ => rfl
theorem armTriggerUnit : ∀ x, Statement (.armTriggerUnit x) := fun _ => rfl
theorem snapshotTheEventCounters : ∀ x, Statement (.snapshotTheEventCounters x) := fun _ => rfl
theorem appendASoftwareEntry : ∀ x y, Statement (.appendASoftwareEntry x y) := fun _ _ => rfl
theorem timeSet : ∀ x y, Statement (.timeSet x y) := fun _ _ => rfl
theorem timeAdd : ∀ x y, Statement (.timeAdd x y) := fun _ _ => rfl
theorem timeRate : ∀ x, Statement (.timeRate x) := fun _ => rfl
theorem timeCtrlSet : Statement .timeCtrlSet := rfl
theorem timeCtrlAdd : Statement .timeCtrlAdd := rfl
theorem ppsArm : Statement .ppsArm := rfl
theorem ppsLoad : ∀ x y, Statement (.ppsLoad x y) := fun _ _ => rfl
theorem timeNowCapture : ∀ x, Statement (.timeNowCapture x) := fun _ => rfl
theorem periodicTimer : ∀ x, Statement (.periodicTimer x) := fun _ => rfl
theorem syncArming : ∀ x y, Statement (.syncArming x y) := fun _ _ => rfl
theorem syncFireEdge : ∀ x, Statement (.syncFireEdge x) := fun _ => rfl
theorem syncFireRise : ∀ x y, Statement (.syncFireRise x y) := fun _ _ => rfl
theorem firePulseEnd : Statement .firePulseEnd := rfl
theorem badWidthTimeout : Statement .badWidthTimeout := rfl
theorem compensatedRelease : ∀ x, Statement (.compensatedRelease x) := fun _ => rfl
theorem autoRelease : Statement .autoRelease := rfl
theorem arcRearm : ∀ x, Statement (.arcRearm x) := fun _ => rfl
theorem arcFreeze : ∀ x, Statement (.arcFreeze x) := fun _ => rfl
theorem arcReplay : ∀ x, Statement (.arcReplay x) := fun _ => rfl
theorem arcEndPass : ∀ x, Statement (.arcEndPass x) := fun _ => rfl
theorem arcFrameComplete : ∀ x, Statement (.arcFrameComplete x) := fun _ => rfl
theorem replayFrameOffer : ∀ x y, Statement (.replayFrameOffer x y) := fun _ _ => rfl
theorem arcHostFetch : ∀ x, Statement (.arcHostFetch x) := fun _ => rfl
theorem arcHostFetchDone : ∀ x, Statement (.arcHostFetchDone x) := fun _ => rfl
theorem arcScrub : ∀ x y, Statement (.arcScrub x y) := fun _ _ => rfl
theorem sramScrub : ∀ x, Statement (.sramScrub x) := fun _ => rfl
theorem scrubDeferralExpiry : ∀ x, Statement (.scrubDeferralExpiry x) := fun _ => rfl
theorem unitHandedToStriper : ∀ x, Statement (.unitHandedToStriper x) := fun _ => rfl
theorem marker : Statement .marker := rfl
theorem ack : ∀ x y, Statement (.ack x y) := fun _ _ => rfl
theorem nak : ∀ x y, Statement (.nak x y) := fun _ _ => rfl
theorem replayTimeout : Statement .replayTimeout := rfl
theorem bcAlignment : ∀ x, Statement (.bcAlignment x) := fun _ => rfl
theorem bcSilenceTimeout : Statement .bcSilenceTimeout := rfl
theorem bcMessageDiscarded : ∀ x y, Statement (.bcMessageDiscarded x y) := fun _ _ => rfl
theorem caps : ∀ x, Statement (.caps x) := fun _ => rfl
theorem stepResult : ∀ x, Statement (.stepResult x) := fun _ => rfl
theorem pm : ∀ x, Statement (.pm x) := fun _ => rfl
theorem laneReport : ∀ x, Statement (.laneReport x) := fun _ => rfl
theorem echo : ∀ x y, Statement (.echo x y) := fun _ _ => rfl
theorem renegotiate : Statement .renegotiate := rfl
theorem linkEnableWrite : ∀ x, Statement (.linkEnableWrite x) := fun _ => rfl
theorem stepDrained : Statement .stepDrained := rfl
theorem stepDrainTimeout : Statement .stepDrainTimeout := rfl
theorem stepResultTimeout : Statement .stepResultTimeout := rfl
theorem wakePattern : Statement .wakePattern := rfl
theorem wakeOnData : Statement .wakeOnData := rfl
theorem txDelayLineLoss : ∀ x, Statement (.txDelayLineLoss x) := fun _ => rfl
theorem probeStart : ∀ x, Statement (.probeStart x) := fun _ => rfl
theorem probeEnd : ∀ x, Statement (.probeEnd x) := fun _ => rfl
theorem restore : Statement .restore := rfl
theorem hkStart : ∀ x, Statement (.hkStart x) := fun _ => rfl
theorem hkStop : ∀ x, Statement (.hkStop x) := fun _ => rfl
theorem hkPinStart : ∀ x, Statement (.hkPinStart x) := fun _ => rfl
theorem hkConversionStart : ∀ x, Statement (.hkConversionStart x) := fun _ => rfl
theorem hkPeriodicGrid : ∀ x, Statement (.hkPeriodicGrid x) := fun _ => rfl
theorem hkResult : ∀ x y, Statement (.hkResult x y) := fun _ _ => rfl
theorem hkPowerDown : ∀ x, Statement (.hkPowerDown x) := fun _ => rfl
theorem hkCalDue : ∀ x y, Statement (.hkCalDue x y) := fun _ _ => rfl
theorem hkCalForced : ∀ x y, Statement (.hkCalForced x y) := fun _ _ => rfl
theorem monitorPacketAge : Statement .monitorPacketAge := rfl
theorem interleaveChange : Statement .interleaveChange := rfl
theorem pioStep : ∀ x y, Statement (.pioStep x y) := fun _ _ => rfl
theorem pioNop : ∀ x, Statement (.pioNop x) := fun _ => rfl
theorem pioBr : ∀ x, Statement (.pioBr x) := fun _ => rfl
theorem await : ∀ x, Statement (.await x) := fun _ => rfl
theorem rep : ∀ x, Statement (.rep x) := fun _ => rfl
theorem setv : ∀ x, Statement (.setv x) := fun _ => rfl
theorem move : ∀ x, Statement (.move x) := fun _ => rfl
theorem shift : ∀ x, Statement (.shift x) := fun _ => rfl
theorem xchg : ∀ x, Statement (.xchg x) := fun _ => rfl
theorem pioLoad : ∀ x, Statement (.pioLoad x) := fun _ => rfl
theorem store : ∀ x, Statement (.store x) := fun _ => rfl
theorem flag : ∀ x, Statement (.flag x) := fun _ => rfl
theorem addv : ∀ x, Statement (.addv x) := fun _ => rfl
theorem stallEnd : ∀ x y, Statement (.stallEnd x y) := fun _ _ => rfl
theorem vectoredJump : ∀ x y, Statement (.vectoredJump x y) := fun _ _ => rfl
theorem pioRun : ∀ x, Statement (.pioRun x) := fun _ => rfl
theorem pioRestart : ∀ x, Statement (.pioRestart x) := fun _ => rfl
theorem pioSync : ∀ x, Statement (.pioSync x) := fun _ => rfl
theorem pioPcWrite : ∀ x y, Statement (.pioPcWrite x y) := fun _ _ => rfl
theorem inject : ∀ x y, Statement (.inject x y) := fun _ _ => rfl
theorem pioTxfWrite : ∀ x y, Statement (.pioTxfWrite x y) := fun _ _ => rfl
theorem pioRxfRead : ∀ x, Statement (.pioRxfRead x) := fun _ => rfl
theorem pwrCmd : ∀ x, Statement (.pwrCmd x) := fun _ => rfl
theorem streamToReady : Statement .streamToReady := rfl
theorem readyToStandby : Statement .readyToStandby := rfl
theorem standbyToSleep : Statement .standbyToSleep := rfl
theorem sleepToStandby : Statement .sleepToStandby := rfl
theorem standbyToReady : Statement .standbyToReady := rfl
theorem readyToStream : Statement .readyToStream := rfl
theorem enterOff : Statement .enterOff := rfl
theorem trigWake : ∀ x y, Statement (.trigWake x y) := fun _ _ => rfl
theorem scsbWake : Statement .scsbWake := rfl
theorem blockEnableWrite : ∀ x, Statement (.blockEnableWrite x) := fun _ => rfl
theorem faultbHalfPeriod : Statement .faultbHalfPeriod := rfl
theorem thermalStale : Statement .thermalStale := rfl
theorem eventLogAge : Statement .eventLogAge := rfl
theorem faultbTest : ∀ x, Statement (.faultbTest x) := fun _ => rfl
theorem cntClear : ∀ x, Statement (.cntClear x) := fun _ => rfl
theorem counterLiveCapture : ∀ x y, Statement (.counterLiveCapture x y) := fun _ _ => rfl
theorem resetbLow : Statement .resetbLow := rfl
theorem reservedOpFrame : ∀ x, Statement (.reservedOpFrame x) := fun _ => rfl
theorem illegalInstruction : ∀ x, Statement (.illegalInstruction x) := fun _ => rfl
theorem nvmCmdReservedOp : ∀ x, Statement (.nvmCmdReservedOp x) := fun _ => rfl
theorem arcCmdReservedOp : ∀ x y, Statement (.arcCmdReservedOp x y) := fun _ _ => rfl
theorem interjectionDiscarded : ∀ x y z, Statement (.interjectionDiscarded x y z) := fun _ _ _ => rfl
theorem pmDrainTimeout : Statement .pmDrainTimeout := rfl
theorem readNotServed : ∀ x, Statement (.readNotServed x) := fun _ => rfl
theorem slewAbsorbed : Statement .slewAbsorbed := rfl

end Sys2Proof.Laws.Framed
end

