-- ==== Sys2Proof/Machine/Pins.lean ====
section
/-! DEFINITION. The signal balls: their states during reset and after it, and the boundary register on the pins (R45, R54,
R55). -/

namespace Sys2Proof.Machine

/-- The signal balls (R45); numbers index the members of a group, `neg` is the N ball of a pair. -/
inductive Ball where
  | refclk (neg : Bool) | xin | xout | vrefc (n : Nat) | ain (n : Nat) | tx (n : Nat) (neg : Bool) | bci (neg : Bool)
  | pio (n : Nat) | scsb | sck | sdi | sdo | scl | sda | addr | fcsb | fck | fd (n : Nat) | trig (n : Nat)
  | syncArm | syncFire | irqb | faultb | resetb | bootsel (n : Nat) | clkout | tck | tms | tdi | tdo | trstb | testen
deriving DecidableEq, Repr

/-- What the device puts on a ball: a level, nothing (high impedance or released), a pull of some kilo-ohms, a bias, a
termination, electrical idle, a buffer off or on, a clock, or the bits of a lane. -/
inductive Drive where
  | low | high | hiZ | released | pullUp (kohm : Nat) | pullDown (kohm : Nat)
  | biased | terminated | idle | bufferOff | bufferOn | clock | bits
deriving DecidableEq, Repr

/-- The state of each ball from its bank's reset level until the device is configured (R45). -/
def Ball.resetState : Ball → Drive
  | .refclk _ => .biased
  | .xin => .pullUp 100
  | .xout => .low
  | .vrefc _ => .bufferOff
  | .ain _ => .hiZ
  | .tx _ _ => .idle
  | .bci _ => .terminated
  | .pio _ => .pullDown 50
  | .scsb => .pullUp 50
  | .sck | .sdi => .pullDown 50
  | .sdo => .hiZ
  | .scl | .sda => .released
  | .addr => .hiZ
  | .fcsb => .high
  | .fck => .low
  | .fd _ => .pullUp 50
  | .trig _ => .pullDown 50
  | .syncArm | .syncFire | .irqb => .released
  | .faultb => .low
  | .resetb | .bootsel _ => .pullDown 50
  | .clkout => .low
  | .tck => .pullDown 50
  | .tms | .tdi => .pullUp 50
  | .tdo => .hiZ
  | .trstb | .testen => .pullDown 50

/-- The balls of the boundary register, those of VDDIO0 and of VDDIO1 (R55), in the order of the table of R45. The spec gives
no order of its cells (DESIGN CHOICE, notes/assumptions/75.md). -/
def boundaryBalls : List Ball :=
  (List.range 16).map Ball.pio ++ [.scsb, .sck, .sdi, .sdo, .scl, .sda, .addr, .fcsb, .fck] ++ (List.range 4).map Ball.fd ++
  (List.range 4).map Ball.trig ++ [.syncArm, .syncFire, .irqb, .faultb, .resetb, .bootsel 0, .bootsel 1, .clkout, .tck, .tms,
    .tdi, .tdo, .trstb, .testen]

/-- A ball driven by its boundary cell: both levels on outputs, low or released on open-drain balls; an input is not
driven. -/
def Ball.scanned (b : Ball) (v : Bool) : Drive :=
  match b with
  | .pio _ | .sdo | .fcsb | .fck | .fd _ | .faultb | .clkout | .tdo => if v then .high else .low
  | .scl | .sda | .syncArm | .syncFire | .irqb => if v then .released else .low
  | b => b.resetState

/-- An open-drain ball that the device pulls low, or releases. -/
def openDrain (low : Bool) : Drive := if low then .low else .released

/-- A ball of a device that runs: what firmware, registers and the structure have configured; all others keep their reset
state (R45). The flash bus and SDO rest between the steps that use them. -/
def State.runningDrive (s : State) (b : Ball) : Drive :=
  match b with
  | .xout => if s.supply.straps.xin then .clock else .low
  | .vrefc _ => if 3 ≤ s.power then .bufferOn else .bufferOff
  | .tx n _ => if (s.laneLine n).isEmpty then .idle else .bits
  | .pio n => if bit (s.get PIO_PIN_OUT_dir) n then (if bit (s.get PIO_PIN_OUT_level) n then .high else .low) else b.resetState
  | .syncArm => openDrain s.drivesArm
  | .syncFire => openDrain (s.on EVF_SYNC_STAT_driving)
  | .irqb => openDrain s.irqbLow
  | .faultb => if s.faultbLow then .low else .high
  | .clkout => if s.synaOut 7 then .clock else .low
  | b => b.resetState

/-- What the device puts on a ball: under EXTEST the boundary register drives the balls it covers (R54, R55); a device that
is held in reset or off shows the states of R45. -/
def State.ballDrive (s : State) (b : Ball) : Drive :=
  if s.supply.extest ∧ b ∈ boundaryBalls then b.scanned (s.supply.boundary.getD (boundaryBalls.idxOf b) false)
  else if s.portsDead then b.resetState
  else s.runningDrive b

/-- The output impedance of a driver of a bank in ohms, by the class that was latched (R50, R672). -/
def Straps.driverOhms (x : Straps) (rail : Rail) : Nat := if x.high rail then 40 else 33

end Sys2Proof.Machine
end

