-- ==== Sys2Proof/Tests/Slice0.lean ====
section
/-! SUPPORT. Tests: ill-formed commands, and, for each statement of Obligations.lean that has hypotheses, states and
operands that meet them and at which its conclusion comes out. Expected values are the spec's. -/

namespace Sys2Proof.Tests

open Sys2Proof.Machine

set_option Elab.async false

/-- The command completes, and `p` holds of the state before and the state after. -/
def ends (s : State) (c : Instr) (p : State → State → Bool) : Bool :=
  match exec c s with
  | .next t => p s t
  | _ => false

/-- The hypotheses `h` hold of `s`, the command completes, and `p` holds of the states before and after. -/
def works (s : State) (c : Instr) (h : State → Bool) (p : State → State → Bool) : Bool := h s && ends s c p

/-- The device after reset but for some fields, its seed banks erased. -/
def dev (l : List (Fld × Nat)) : State := l.foldl (fun s x => s.put x.1 x.2) { State.reset with nvm := { words := factoryWords } }

/-- A structure in force. -/
def sectioned (l : List Section) (s : State) : State := { s with cfg := { s.cfg with sections := l } }

/-- Crossroads in part. -/
def crossed (f : Evf → Evf) (s : State) : State := { s with evf := f s.evf }

/-- A task request due in cycle 0. -/
def asked (t : Nat) (stamp : Nat := 5) : Request :=
  { task := t, stamp := stamp, forced := false, kind := 2, who := 1, cycle := 0, made := 8 }

/-- The device with requests at its tasks, made in the cycle before. -/
def withAsked (ts : List Nat) (s : State) : State :=
  { crossed (fun e => { e with requests := ts.flatMap fun t => [asked t 9, asked t 7] }) s with cycle := 1 }

/-- The operands that leave nothing out. -/
def sameBut (s t : State) (as : List Nat) : Bool :=
  (s.regs ++ t.regs).all fun e => as.contains e.1 || s.reg e.1 == t.reg e.1

/-! ### Ill-formed commands: one for each check of WellFormed.lean -/

/-- Commands that name what the device does not have. -/
def illFormed : List Instr :=
  [.registerWrite .spi (2 ^ 24) 0#32, .registerWrite .spi 2 0#32, .singleUpsetCorrected ⟨1, true, ⟨0#32, 0#32, 0#32⟩⟩,
   .voteFailure (2 ^ 24 + 4) true ⟨0#32, 1#32, 2#32⟩, .resetbReset { bootsel := 4 }, .testAccessPortReset { bootsel := 4 }, .samplePreload [] [] {},
   .samplePreload (List.replicate 47 true) (List.replicate 48 true) {},
   .samplePreload (List.replicate 47 true) (List.replicate 47 true) { bootsel := 4 }, .bypass 1 {} [], .bypass 64 {} [],
   .bypass 2 { bootsel := 4 } [],
   .bootSequence { refKhz := 65536 }, .bootSequence { flashId := [] }, .refMeasUpdate 65536] ++
  ([PortFrame.i2c 128 [], .queue 16].flatMap fun f => [.cmdNop f, .cmdWriteIncrementing f, .cmdWriteFixed f, .cmdReadIncrementing f,
    .cmdReadFixed f, .reservedOpFrame f, .readNotServed f]) ++
  [.frameTruncated .backChannel [] false, .rowSlot { decisions := List.replicate 25 [] }, .rowSlot { decisions := [List.replicate 226 0] },
   .rowSlot { decisions := [[16384]] }, .subPulse 2096, .triggerPinEdge 6 true 0 0, .triggerPinEdge 0 true 8 0, .badgerMismatch 96,
   .windowRowAvailable 1024 0 [], .windowRowAvailable 0 2048 [], .tapComplete 16 0, .tapComplete 0 4]

theorem test_illFormed : illFormed.all (fun i => !i.wellFormed) = true := by decide +kernel

theorem test_illPrograms : [Instr.runStart 16, .runDeadline 16, .npcNop 16, .setmode 16, .salu 16, .salui 16, .get 16, .ld 16, .st 16, .loop 16,
    .br 16, .npcEnd 16, .mmul 16, .post 16, .discard 16, .tload 16, .emit 16, .waitev 16, .sigev 16, .illegalInstruction 16,
    .tensorWrite (2 ^ 22) 0#32, .tensorWrite 2 0#32].all (fun i => !i.wellFormed) = true := by decide

theorem test_illTasks : [Instr.triggerUnitFire 8, .forcedTrigger 8, .holdoffExpiry 8, .triggerUnitArm 8 0#32, .armTriggerUnit 8, .triggerUnitConfigWrite 8 0 0#32,
    .triggerUnitConfigWrite 0 4 0#32, .directRouteRequest 64, .startAConversion 2, .hkStart 2, .hkStop 2, .hkPinStart 2, .hkConversionStart 2,
    .hkPeriodicGrid 2, .hkPowerDown 2, .hkResult 2 0, .hkResult 0 16384, .hkCalDue 2 0, .hkCalDue 0 16384, .hkCalForced 2 0, .hkCalForced 0 16384,
    .markMetadata 4, .raiseInterrupt 4, .signalPinEngine 8, .setComputeFlag 8, .timeSet (2 ^ 64) 0, .timeAdd (2 ^ 64) 0,
    .ppsLoad 8 0, .syncArming true 8, .syncFireEdge 8, .syncFireRise 0 8,
    .periodicTimer 2].all (fun i => !i.wellFormed) = true := by decide

theorem test_illArcade : [Instr.arcRearm 16, .arcFreeze 16, .arcReplay 16, .arcEndPass 16, .arcFrameComplete 16, .replayFrameOffer 16 [], .arcCmdReservedOp 4 0,
    .arcCmdReservedOp 16 0, .arcCmdReservedOp 5 16, .arcHostFetch (2 ^ 20), .arcScrub 8 0, .sramScrub { memory := 11, word := 0, errorBits := 1 },
    .sramScrub { memory := 0, word := 8, errorBits := 1 }, .scrubDeferralExpiry { memory := 0, word := 0, errorBits := 1, ring := 256 },
    .scrubDeferralExpiry { memory := 0, word := 0, errorBits := 1, seq := 65536 }].all (fun i => !i.wellFormed) = true := by decide

theorem test_illLinkAndPins : [Instr.ack 65536 0, .nak 0 256, .interjectionDiscarded 65536 0 true, .txDelayLineLoss 8, .probeStart 8, .probeEnd 8, .pioNop 8, .pioBr 8, .await 8, .rep 8, .setv 8,
    .move 8, .shift 8, .xchg 8, .pioLoad 8, .store 8, .flag 8, .addv 8, .pioPcWrite 8 0#32, .inject 8 0#32, .pioTxfWrite 8 0#32, .pioRxfRead 8, .pioStep 8 0,
    .pioStep 0 65536, .stallEnd 8 0, .stallEnd 0 65536, .vectoredJump 8 0, .vectoredJump 0 65536, .pioRun 256, .pioRestart 256, .pioSync 256,
    .trigWake 4 true, .counterLiveCapture .spi 32, .nvmCmdReservedOp 4, .nvmCmdReservedOp 8].all (fun i => !i.wellFormed) = true := by decide

/-! ### Crossroads and the SYNC bus -/

/-- Unit 7 in auto mode, armed, with source 24 in its pattern, the level stamped at 3; it requests tasks 0 and 43. -/
def unitDev (mode : Nat) (level : Nat) : State :=
  crossed (fun e => { e with changes := [{ src := 24, stamp := 3, interp := false, rising := true }] }) (sectioned
    [{ type := 6, inst := 0, body := List.replicate 0x58 0#8 ++ [1#8, 0#8, 0#8, 0#8, 0#8, 8#8, 0#8, 0#8] ++ List.replicate 0x20 0#8 }]
    (dev [(EVF_TU_CTRL_mode 7, mode), (EVF_TU_CTRL_armed 7, 1), (EVF_TU_CTRL_holdoff 7, 4), (EVF_TU_PATTERN_p 7, 2 ^ 24),
      (EVF_TU_DONTCARE_d 7, 2 ^ 32 - 1 - 2 ^ 24), (EVF_SRC_LEVEL_level 0, level * 2 ^ 24)]))

theorem wit_unitFires : works (unitDev 1 1) (.triggerUnitFire 7) (fun s => s.fires 7 && s.shaped) (fun s t =>
    t.get (EVF_TU_STAT_fires 7) == 1 && t.get64 (aEVF_TU_STAMP_LO 7) (aEVF_TU_STAMP_HI 7) == 3 &&
    t.get (EVF_TU_CTRL_armed 7) == 1 && t.unit 7 == { s.unit 7 with fired := true, holding := true } &&
    t.evf.pulsesNext == [94] && t.evf.requests.map (·.task) == [0, 43] && t.evf.requests.all (·.stamp == 3)) = true := by
  decide +kernel

theorem wit_unitFires_single : works (unitDev 2 1) (.triggerUnitFire 7) (fun s => s.fires 7 && s.shaped) (fun _ t =>
    t.get (EVF_TU_CTRL_armed 7) == 0 && !(t.unit 7).holding) = true := by decide +kernel

theorem wit_unitForced : works (unitDev 3 0) (.forcedTrigger 7)
    (fun s => s.mayFire 7 && s.get (EVF_TU_CTRL_mode 7) == 3 && !s.fires 7 && s.shaped) (fun _ t =>
    t.get (EVF_TU_STAT_forced 7) == 1 && t.get (EVF_TU_STAT_last_forced 7) == 1 && t.on EVF_IRQ_STAT_forced &&
    (t.unit 7).fired && t.evf.requests.all (·.forced)) = true := by decide +kernel

theorem wit_holdoffEnd : works (crossed (fun e => { e with units := List.replicate 8 { holding := true } }) (unitDev 1 0))
    (.holdoffExpiry 7) (fun s => s.shaped && (s.unit 7).holding) (fun s t => !(t.unit 7).holding && sameBut s t []) = true := by
  decide +kernel

theorem wit_unitArmed : works (dev []) (.triggerUnitArm 7 3#32)
    (fun s => s.shaped && s.get (EVF_TU_CTRL_mode 7) == 0) (fun _ t =>
    t.get (EVF_TU_CTRL_armed 7) == 1 && t.get (EVF_TU_CTRL_mode 7) == 3 && !(t.unit 7).prevTrue) = true := by decide +kernel

theorem wit_unitDisarmed : works (unitDev 1 1) (.triggerUnitArm 7 0#32) (fun s => s.armed 7) (fun _ t =>
    t.get (EVF_TU_CTRL_armed 7) == 0 && t.get (EVF_TU_CTRL_mode 7) == 0) = true := by decide +kernel

theorem wit_unitConfig : works (dev []) (.triggerUnitConfigWrite 7 3 0xFFFFFFFF#32) (fun s => s.shaped) (fun _ t =>
    t.reg (aEVF_TU_PATTERN 7 + 12) == 0xFFFFFFFF#32 && (t.unit 7).prevTrue) = true := by decide +kernel

theorem wit_unitArmTask : works (withAsked [41] (dev [(EVF_TU_CTRL_mode 7, 2)])) (.armTriggerUnit 7)
    (fun s => s.shaped && !(s.due 41).isEmpty && s.get (EVF_TU_CTRL_mode 7) == 2) (fun _ t =>
    t.get (EVF_TU_CTRL_armed 7) == 1 && !(t.unit 7).prevTrue) = true := by decide +kernel

/-- One direct route: a rising edge of source 24 to task 17; the source rose with stamp 3. -/
def routeDev : State :=
  crossed (fun e => { e with changes := [{ src := 24, stamp := 3, interp := false, rising := true }] }) (sectioned
    [{ type := 6, inst := 0, body := [1#8] ++ List.replicate 0x5F 0#8 ++ [0x18#8, 0x11#8, 0#8, 0#8] }]
    (dev [(EVF_SRC_LEVEL_level 0, 2 ^ 24)]))

theorem wit_route : works routeDev (.directRouteRequest 0)
    (fun s => s.route? 0 == some 0x1118 && s.sourceEdge 24 0 && s.evf.requests.isEmpty) (fun s t =>
    t.evf.requests == [{ task := 17, forced := false, kind := 1, who := 0, cycle := 0, stamp := 3, made := s.now }]) = true := by
  decide +kernel

theorem wit_taskInterrupt : works (withAsked [13] (dev [])) (.raiseInterrupt 3) (fun s => !(s.due 13).isEmpty) (fun _ t =>
    bit (t.get EVF_IRQ_STAT_task_irq) 3 && t.evf.requests.isEmpty && t.get (EVF_COALESCE_hi 6) == 1) = true := by
  decide +kernel

theorem wit_taskCapture : works (withAsked [17] (dev [])) .capture (fun s => !(s.due 17).isEmpty) (fun _ t =>
    t.get64 aEVF_CAPTURE_LO aEVF_CAPTURE_HI == 7) = true := by decide +kernel

theorem wit_taskArm : works (withAsked [15] (dev [])) .driveSyncArm (fun s => !(s.due 15).isEmpty) (fun _ t =>
    t.get EVF_SYNC_CTRL_arm == 1) = true := by decide +kernel

theorem wit_taskRelease : works (withAsked [16] (dev [(EVF_SYNC_CTRL_arm, 1)])) .releaseSyncArm
    (fun s => !(s.due 16).isEmpty) (fun _ t => t.get EVF_SYNC_CTRL_arm == 0) = true := by decide +kernel

/-- Two regions of the Arcade: region 1 takes the tasks, has PRE 2 and POST 1, base 0x4000, slots of 1024 bytes, writer 1 and
ring 3. -/
def arcSection : Section :=
  { type := 10, inst := 0, body := [2#8] ++ List.replicate 15 0#8 ++ List.replicate 32 0#8 ++
      [1#8, 3#8, 3#8, 0#8] ++ leBytes 4 0x4000 ++ leBytes 4 0x1000 ++ leBytes 2 2 ++ leBytes 2 1 ++ leBytes 4 0x400 ++
      List.replicate 12 0#8 }

/-- The Arcade with its region 1 in a state. -/
def arcDev (st : Nat) (l : List (Fld × Nat) := []) : State := sectioned [arcSection] (dev ((ARC_REG_STATE_state 1, st) :: l))

theorem wit_taskFreeze : works (withAsked [2] (arcDev 1)) .freezeTheArcade
    (fun s => !(s.due 2).isEmpty && (s.regionDef? 1).any (fun d => bit d.flags 0) && s.regionState 1 == 1) (fun _ t =>
    t.regionState 1 == 2 && t.get64 (aARC_REG_TRIG_STAMP_LO 1) (aARC_REG_TRIG_STAMP_HI 1) == 7 &&
    t.on ARC_IRQ_STAT_triggered && (t.region 1).postLeft == 2) = true := by decide +kernel

theorem wit_taskRearm : works (withAsked [3] (arcDev 3 [(ARC_REG_STATE_generation 1, 255)])) .rearmTheArcadeRecorder
    (fun s => !(s.due 3).isEmpty && (s.regionDef? 1).any (fun d => bit d.flags 1) && !s.arc.frozenNow.contains 1 &&
      !s.freezeFollows 1 && !s.pending.contains .freezeTheArcade && (s.region 1).pass.isNone) (fun _ t =>
    t.regionState 1 == 1 && t.region 1 == {} && t.get (ARC_REG_STATE_generation 1) == 0) = true := by decide +kernel

/-- A re-arm keeps the frames that the region has abandoned since the last one stored (R459). -/
theorem wit_rearmKeepsAbandoned : works (withAsked [3] { arcDev 3 with arc := { regions := [(1, { abandoned := 4 })] } })
    .rearmTheArcadeRecorder (fun s => !(s.due 3).isEmpty && (s.region 1).abandoned == 4) (fun _ t =>
    t.region 1 == { abandoned := 4 }) = true := by decide +kernel

theorem wit_taskFlag : works (withAsked [33] (dev [])) (.setComputeFlag 7) (fun s => !(s.due 33).isEmpty) (fun s t =>
    bit (t.get NPC_FLAGS_flags) 7 && t.npc.runs == s.npc.runs) = true := by decide +kernel

/-- The SYNC bus in mode 1, armed. -/
def syncDev (l : List (Fld × Nat) := []) (y : Sync := {}) : State :=
  crossed (fun e => { e with sync := y }) (dev ((EVF_SYNC_CFG_mode, 1) :: (EVF_SYNC_STAT_armed, 1) :: l))

theorem wit_fireDriven : works (syncDev) (.driveSyncFire false)
    (fun s => s.syncMode == 1 && s.on EVF_SYNC_STAT_armed && !s.evf.sync.fireLow && !s.on EVF_SYNC_STAT_driving && !s.pending.any disarms) (fun s t =>
    t.get EVF_SYNC_STAT_driving == 1 && t.evf == s.evf) = true := by decide +kernel

theorem wit_fireByTask : works (withAsked [14] syncDev) (.driveSyncFire true)
    (fun s => !(s.due 14).isEmpty && s.syncMode == 1 && s.on EVF_SYNC_STAT_armed && !s.evf.sync.fireLow &&
      !s.on EVF_SYNC_STAT_driving && !s.pending.any disarms) (fun _ t => t.get EVF_SYNC_STAT_driving == 1) = true := by decide +kernel

theorem wit_fireEnds : works (syncDev [(EVF_SYNC_STAT_driving, 1)]) .firePulseEnd (fun _ => true) (fun s t =>
    t.get EVF_SYNC_STAT_driving == 0 && t.evf == s.evf) = true := by decide +kernel

theorem wit_autoRelease : works (syncDev [(EVF_SYNC_CTRL_arm, 1)] { autoRelease := true }) .autoRelease
    (fun s => s.evf.sync.autoRelease) (fun _ t => t.get EVF_SYNC_CTRL_arm == 0 && !t.evf.sync.autoRelease) = true := by
  decide +kernel

theorem wit_badWidth : works (syncDev [(EVF_SYNC_STAT_bad_width, 255)] { measuring := some 9 }) .badWidthTimeout
    (fun s => s.evf.sync.measuring.isSome) (fun _ t =>
    t.get EVF_SYNC_STAT_bad_width == 255 && t.evf.sync.measuring.isNone && t.evf.sync.releases.isEmpty) = true := by
  decide +kernel

theorem wit_fireRefused : works (syncDev [(EVF_SYNC_STAT_driving, 1)]) (.driveSyncFire false)
    (fun s => s.syncMode != 1 || !s.on EVF_SYNC_STAT_armed || s.evf.sync.fireLow || s.on EVF_SYNC_STAT_driving) (fun _ t =>
    t.get EVF_SYNC_STAT_driving == 1 && t.get EVF_SYNC_STAT_refused == 1 && t.on EVF_IRQ_STAT_sync_refused) = true := by
  decide +kernel

theorem wit_arming : works (dev [(EVF_SYNC_CFG_mode, 1)]) (.syncArming true 5) (fun _ => true) (fun _ t =>
    t.evf.sync.armLow && t.level 28 && t.get EVF_SYNC_STAT_armed == 1) = true := by decide +kernel

theorem wit_firePasses : works (syncDev [(EVF_SYNC_STAT_fires, 255)]) (.syncFireEdge 5) (fun s => s.passesEdge false) (fun _ t =>
    t.evf.sync.fireLow && t.evf.sync.releases.map (fun r => (r.pin, r.rising, r.delay)) == [(4, false, 0)]) = true := by decide +kernel

theorem wit_fireMeasured : works (syncDev [(EVF_SYNC_CFG_comp, 1)]) (.syncFireEdge 0)
    (fun s => s.passesEdge false && s.on EVF_SYNC_CFG_comp) (fun _ t => t.evf.sync.measuring.isSome && t.evf.sync.fallPassed) = true := by
  decide +kernel

theorem wit_fireBlocked : works (syncDev [] { passed := true }) (.syncFireEdge 7) (fun s => !s.passesEdge false) (fun _ t =>
    t.evf.sync.fireLow && t.evf.sync.releases.isEmpty) = true := by decide +kernel

theorem wit_fireRise : works (syncDev [(EVF_FIRE_DELAY_delay 1, 700)] { fireLow := true, measuring := some 9, fallPassed := true })
    (.syncFireRise 100 0) (fun s => s.syncMode == 1 && s.evf.sync.measuring == some 9) (fun _ t =>
    !t.evf.sync.fireLow && t.get EVF_SYNC_STAT_last_id == 1 && t.evf.sync.measuring.isNone &&
    t.evf.sync.releases == [{ pin := 4, rising := false, stamp := 9, delay := 700 }]) = true := by decide +kernel

/-- In mode 0 the rising edge that SHT_TRIG_CFG selects passes, counts, and is released by the plain delay (R445, R450). -/
theorem wit_risePasses : works (dev [(SHT_TRIG_CFG_src, 4), (EVF_SYNC_STAT_fires, 255), (EVF_FIRE_DELAY_delay 0, 40)])
    (.syncFireRise 100 0) (fun s => s.syncMode == 0 && s.selects 4 true && !s.on EVF_SYNC_CFG_comp && s.evf.sync.measuring.isNone)
    (fun _ t => t.evf.sync.releases.map (fun r => (r.pin, r.rising, r.delay)) == [(4, true, 40)]) = true := by
  decide +kernel

/-! ### The time base, the counters and the log -/

/-- The device with a value of the time base. -/
def timed (b : Nat) (s : State) : State := { s with time := { s.time with base := b } }

theorem wit_timeSet : works (dev [(LNK_STATUS_bc_aligned, 1), (TIME_PATH_DELAY_delay, 3), (TIME_STATUS_epoch, 255)]) (.timeSet (2 ^ 64 - 2) 7)
    (fun s => s.on LNK_STATUS_bc_aligned && !s.timeLoses 1) (fun _ t => t.time.base == 256 + 7 * rxUnit && t.time.slew == 0 && t.get TIME_STATUS_synced == 1 &&
    t.get TIME_STATUS_epoch == 0 && t.time.changed) = true := by decide +kernel

theorem wit_timeCtrlSet : works (dev [({ addr := aTIME_LOAD_HI, lo := 0, w := 32 }, 2)]) .timeCtrlSet
    (fun s => !s.on TIME_CTRL_set && !s.timeLoses 2) (fun _ t => t.time.base == 2 ^ 33 * 256 && t.get TIME_STATUS_epoch == 1) = true := by
  decide +kernel

theorem wit_pps : works (dev [(TIME_CTRL_pps_src, 5), (TIME_CTRL_pps_arm, 1)]) (.ppsLoad 7 9)
    (fun s => !s.time.changed && decide (s.get TIME_CTRL_pps_src < 6) && s.on TIME_CTRL_pps_arm) (fun _ _ => true) = true := by decide +kernel

theorem wit_ppsArm : works (dev [(TIME_CTRL_pps_src, 5)]) .ppsArm (fun _ => true) (fun s t =>
    t.get TIME_CTRL_pps_arm == 1 && t.time == s.time && sameBut s t [aTIME_CTRL]) = true := by decide +kernel

theorem wit_addSlews : works (dev [(LNK_STATUS_bc_aligned, 1), (TIME_CTRL_slew_en, 1), (TIME_SLEW_LIMIT_ns, 1)]) (.timeAdd (2 ^ 64 - 65536) 0)
    (fun s => s.on LNK_STATUS_bc_aligned && !s.timeLoses 1 && s.slews (toSigned 64 (2 ^ 64 - 65536))) (fun _ t =>
    t.time.base == 0 && t.time.slew == -16777216 && t.get TIME_STATUS_slewing == 1 && t.get TIME_STATUS_epoch == 0) = true := by
  decide +kernel

theorem wit_addSteps : works (dev [(LNK_STATUS_bc_aligned, 1), (TIME_CTRL_slew_en, 1), (TIME_SLEW_LIMIT_ns, 1)]) (.timeAdd (2 ^ 64 - 65537) 0)
    (fun s => s.on LNK_STATUS_bc_aligned && !s.timeLoses 1 && !s.slews (toSigned 64 (2 ^ 64 - 65537))) (fun _ t =>
    t.time.base == 2 ^ 72 - 65537 * 256 && t.time.slew == 0 && t.get TIME_STATUS_epoch == 1 &&
    t.get TIME_STATUS_synced == 1) = true := by decide +kernel

theorem wit_ctrlAdd : works (timed 5 (dev [({ addr := aTIME_LOAD_LO, lo := 0, w := 32 }, 2)])) .timeCtrlAdd
    (fun s => !s.on TIME_CTRL_add && !s.timeLoses 2 && !s.slews 2) (fun _ t =>
    t.time.base == 517 && t.get TIME_STATUS_epoch == 1 && t.get TIME_STATUS_synced == 0) = true := by decide +kernel

theorem wit_absorbed : works { dev [(TIME_STATUS_slewing, 1)] with time := { base := 3, slew := -5 } } .slewAbsorbed
    (fun s => s.time.slew != 0 && decide (s.time.slew.natAbs ≤ s.slewStep)) (fun _ t =>
    t.time.base == 2 ^ 72 - 2 && t.time.slew == 0 && t.get TIME_STATUS_slewing == 0) = true := by decide +kernel

/-- The last step of a slew is of TIME_INC >> 11 at most (R437); a longer remainder is not absorbed. -/
theorem wit_notAbsorbed : ([0, 81920, -81921] : List Int).map (fun (k : Int) =>
    works { dev [(TIME_STATUS_slewing, 1)] with time := { base := 3, slew := k } } .slewAbsorbed
      (fun s => s.time.slew == 0 || decide (s.slewStep < s.time.slew.natAbs)) fun s t => s.time == t.time && t.on TIME_STATUS_slewing) =
    [true, false, true] := by decide +kernel

theorem wit_timeRate : works (dev [(LNK_STATUS_bc_aligned, 1)]) (.timeRate 0xFFFFFFFF#32) (fun s => s.on LNK_STATUS_bc_aligned && !s.timeLoses 1) (fun _ t =>
    t.get TIME_INC_inc == 0xFFFFFFFF && t.time.base == 0 && t.get TIME_STATUS_epoch == 0) = true := by decide +kernel

theorem wit_nowCapture : works (timed (7 * 2 ^ 40) (dev [])) (.timeNowCapture .i2c) (fun _ => true) (fun s t =>
    Sparse.get 0 t.time.captured 3 == 7 && sameBut s t []) = true := by decide +kernel

theorem wit_timer : works { dev [(TIME_TIMER_PERIOD_ns 1, 10)] with time := { base := 10 * 2 ^ 24, prev := 10 * 2 ^ 24 - 1 } }
    (.periodicTimer 1) (fun s => s.timerDue 1) (fun s t =>
    t.evf.pulses.contains 86 && t.time.timersFired.contains 1 && t.time.base == s.time.base) = true := by decide +kernel

/-- A change that loses, to an earlier change or to an armed PPS edge that follows in the cycle, waits (R436). -/
def timeLoser : List State :=
  [{ dev [(LNK_STATUS_bc_aligned, 1)] with time := { changed := true } },
   { dev [(LNK_STATUS_bc_aligned, 1), (TIME_CTRL_pps_src, 5), (TIME_CTRL_pps_arm, 1)] with pending := [.ppsLoad 0 0] }]

theorem wit_timeWaits : timeLoser.all (fun (x : State) => ([.timeSet 5 0, .timeAdd 5 0] : List Instr).all fun c =>
    works x c (fun s => s.on LNK_STATUS_bc_aligned && s.timeLoses 1) fun s t =>
      t.time.base == s.time.base && t.time.waiting.length == 1 && t.get TIME_STATUS_epoch == 0) = true := by decide +kernel

theorem wit_timeCtrlWaits : timeLoser.all (fun (x : State) => ([(.timeCtrlSet, TIME_CTRL_set), (.timeCtrlAdd, TIME_CTRL_add)] : List (Instr × Fld)).all fun c =>
    works x c.1 (fun s => s.timeLoses 2 && !s.on c.2) fun s t =>
      t.time.base == s.time.base && t.time.waiting.length == 1 && t.on c.2) = true := by decide +kernel

/-- Counter 31 counts source 95 and stands at its end; it has counted in this cycle or not. -/
def cntDev (counted : List Nat) : State :=
  { dev [(CNT_CFG_en 31, 1), (CNT_CFG_source 31, 96), ({ addr := aCNT_LIVE 31 0, lo := 0, w := 32 }, 2 ^ 32 - 1),
      ({ addr := aCNT_LIVE 31 1, lo := 0, w := 32 }, 2 ^ 16 - 1)] with cnt := { counted := counted } }

theorem wit_snapshot : works (timed 256 (cntDev [])) (.snapshotTheEventCounters false) (fun s => !s.cnt.snapped) (fun _ t =>
    t.get64 (aCNT_SNAP 31 0) (aCNT_SNAP 31 1) == 2 ^ 48 - 1 && t.get64 aCNT_SNAP_STAMP_LO aCNT_SNAP_STAMP_HI == 1 &&
    t.on CNT_IRQ_STAT_snapshot && t.cnt.snapped && t.counter 31 == 2 ^ 48 - 1) = true := by decide +kernel

theorem wit_snapshotTwice : works { cntDev [] with cnt := { snapped := true } } (.snapshotTheEventCounters false)
    (fun s => s.cnt.snapped) (fun s t => t == s) = true := by decide +kernel

theorem wit_clear : works (cntDev [31]) (.cntClear 0xC0000000#32) (fun s => s.cnt.counted.contains 31) (fun _ t =>
    t.counter 31 == 1 && t.counter 30 == 0) = true := by decide +kernel

theorem wit_liveCapture : works (cntDev []) (.counterLiveCapture .i2c 31) (fun _ => true) (fun s t =>
    Sparse.get 0 t.cnt.captured 127 == 2 ^ 16 - 1 && sameBut s t []) = true := by decide +kernel

theorem wit_softEntry : works (timed (2 ^ 40) (dev [])) (.appendASoftwareEntry (some .i2c) 0xFFFFFFFF#32)
    (fun s => decide (s.safe.log.length < 511)) (fun _ t =>
    t.reg (aSAFE_LOG_LAST 0) == 0x130500#32 && t.reg (aSAFE_LOG_LAST 1) == 0xFFFFFFFF#32 &&
    t.reg (aSAFE_LOG_LAST 2) == 3#32 && t.reg (aSAFE_LOG_LAST 6) == 0#32 && t.reg (aSAFE_LOG_LAST 7) == 1#32) = true := by
  decide +kernel

theorem wit_softEntryTask : works { crossed (fun e => { e with requests := [asked 43 7] }) (dev []) with cycle := 1 }
    (.appendASoftwareEntry none 5#32) (fun s => decide (s.safe.log.length < 511) && s.due 43 == [asked 43 7]) (fun _ t =>
    t.reg (aSAFE_LOG_LAST 0) == 0x130500#32 && t.reg (aSAFE_LOG_LAST 1) == 0#32 && t.reg (aSAFE_LOG_LAST 2) == 4#32 &&
    t.reg (aSAFE_LOG_LAST 6) == 7#32) = true := by decide +kernel

theorem wit_faultbTest : works (dev []) (.faultbTest true) (fun s => !s.portsDead) (fun _ t =>
    t.on SAFE_FAULTB_test && bit (t.get SAFE_FAULT_STAT_fault) 7) = true := by decide +kernel

theorem wit_wave : works (dev [(SAFE_FAULTB_level, 1)]) .faultbHalfPeriod (fun s => s.get SAFE_FAULTB_level == 1) (fun s t =>
    t.safe.waveLow && sameBut s t []) = true := by decide +kernel

theorem wit_selfTest : works { dev [] with safe := { badgerPending := true }, sht := { cur := some { number := 191 } } }
    (.badgerSelfTest false) (fun s => s.safe.badgerPending && s.sht.cur.isSome) (fun _ t =>
    !t.safe.badgerPending && t.get SAFE_BADGER_last_bit == 95 && t.on SAFE_BADGER_lost) = true := by decide +kernel

theorem wit_mismatch : works (dev [(PWR_STATUS_state, 4), (SAFE_BADGER_mismatches, 65535)]) (.badgerMismatch 95)
    (fun s => decide (3 ≤ s.power) && !s.on SAFE_BADGER_lost && !s.safe.badgerOff) (fun _ t =>
    bit (t.get SAFE_FAULT_STAT_fault) 4 && t.get SAFE_BADGER_mismatches == 65535) = true := by decide +kernel

theorem wit_stale : works (dev [(PWR_STATUS_state, 3)]) .thermalStale
    (fun s => decide (3 ≤ s.power) && !s.on SAFE_THERMAL_STAT_stale) (fun _ t =>
    t.on SAFE_THERMAL_STAT_stale && bit (t.get SAFE_FAULT_STAT_warn) 2) = true := by decide +kernel

theorem wit_logAge : works { dev [(LNK_STATUS_state, 3)] with safe := { log := [{ cause := 0, kind := 5, block := 19, args := [], stamp := 1 }] } }
    .eventLogAge (fun s => s.linkActive && decide (0 < s.safe.log.length) &&
      decide (16 + 32 * min s.logBatch s.safe.log.length + 20 ≤ s.spoolFree 1)) (fun s t =>
    t.safe.log == s.safe.log.drop (min s.logBatch 1) && (t.ring 1).spool.any fun p => p.type == 7 && p.seq == 0) = true := by
  decide +kernel

/-! ### Frames -/

/-- A rolling frame: one exposure, so 2096 slots of 500 cycles. -/
def rolling : Frame := { number := 7, exps := 1, rowPix := 500, x := [100], eff := [100], lags := [0] }

/-- A global frame. -/
def global : Frame := { rolling with mode := 1, lags := [] }

/-- STREAM with SYNA locked and the fields given both as written and in force. -/
def stream (h : Shutter) (l : List (Fld × Nat) := []) : State :=
  let s := ((PWR_STATUS_state, 4) :: (SHT_CTRL_run, 1) :: l).foldl (fun s x => s.putBoth x.1 x.2) (dev [])
  { s with sht := h, clk := { a := { locked := true } } }

theorem wit_integration : works (timed (256 * 5) (stream { next := some global, accepted := true })) .globalIntegrationStart
    (fun s => s.sht.next == some global && global.mode == 1 && s.sht.phase == 0 && s.sht.accepted) (fun _ t =>
    t.sht.phase == 1 && t.evf.pulses.contains 49 &&
    t.sht.next == some { global with stamp := 5, epoch := 0, synced := false }) = true := by decide +kernel

theorem wit_transferOne : works (stream { next := some global, phase := 1 }) .transferT1
    (fun s => s.sht.next.isSome && s.sht.phase == 1 && s.nodesFree) (fun _ t => t.sht.phase == 3) = true := by decide +kernel

theorem wit_transferTwo : works (stream { next := some { global with exps := 2 }, phase := 1 }) .transferT1
    (fun s => s.sht.next.isSome && s.sht.phase == 1 && s.nodesFree) (fun _ t =>
    t.sht.phase == 2 && works t .transferT2 (fun s => s.sht.phase == 2) fun _ u => u.sht.phase == 3) = true := by decide +kernel

/-- A transfer waits for the end of the guard after a global readout (R242). -/
theorem wit_transferWaits : [683, 684].map (fun n => works (stream { cur := some global, next := some global, phase := 1, after := n }) .transferT1
    (fun s => s.nodesFree == decide (684 ≤ n)) (fun _ t => t.sht.phase == 3)) = [false, true] := by decide +kernel

theorem wit_readoutStart : works (stream { frameNo := 2 ^ 32 - 1, next := some rolling, running := true, nextMarks := 9 }) .readoutStart
    (fun s => s.sht.next == some rolling && !s.sht.reading && s.power == 4 && s.sht.running && !rolling.trigMode) (fun _ t =>
    t.sht.reading && t.sht.frameNo == 2 ^ 32 && t.sht.slot == 0 && t.get SHT_FRAME_NUM_frame == 0 &&
    t.on SHT_IRQ_STAT_readout_start && t.evf.pulses.contains 46 &&
    t.sht.cur.any fun g => g.number == 2 ^ 32 && g.marks == 9) = true := by decide +kernel

theorem wit_readoutStartGlobal : works (stream { frameNo := 4, next := some global, phase := 3 }) .readoutStart
    (fun s => s.sht.next == some global && !s.sht.reading && s.power == 4 && s.sht.phase == 3) (fun _ t =>
    t.sht.reading && t.sht.frameNo == 5 && t.sht.phase == 0) = true := by decide +kernel

/-- A multi-exposure frame of three sub-pulses. -/
def pulsed : Frame := { rolling with mode := 2, pulses := 3, spacing := 10, width := 5 }

theorem wit_subPulse : [2, 3].map (fun n => works (stream { next := some pulsed, subNext := [(2095, n)], subPulses := [(2095, 1)] }) (.subPulse 2095)
    (fun s => s.sht.cur.isNone && s.sht.next.any (fun f => f.mode == 2 && !f.trigMode))
    (fun s t => t.sht.subPulses == s.sht.subPulses && Sparse.get 0 t.sht.subNext 2095 == 3)) = [true, true] := by decide +kernel

theorem wit_subPulseRead : [2, 3].map (fun n => works (stream { cur := some pulsed, reading := true, subPulses := [(2095, n)] }) (.subPulse 2095)
    (fun s => s.sht.cur.any fun f => f.mode == 2 && s.readAhead f 2095 f.pulseExp)
    (fun s t => t.sht.subNext == s.sht.subNext && Sparse.get 0 t.sht.subPulses 2095 == 3)) = [true, true] := by decide +kernel

set_option maxRecDepth 100000 in
theorem wit_readoutEnd : works (stream { cur := some rolling, reading := true, slot := 2096, running := true }) .readoutEnd
    (fun s => s.sht.cur == some rolling && s.sht.reading && decide (rolling.slots ≤ s.sht.slot) && s.cfg.load.isNone &&
      s.cfg.waiting.isNone) (fun _ t =>
    !t.sht.reading && t.sht.after == 0 && t.on SHT_IRQ_STAT_readout_end && t.evf.pulses.contains 47 &&
    t.safe.badgerPending) = true := by decide +kernel

set_option maxRecDepth 100000 in
theorem wit_runTakeUp : works (stream { frameNo := 6 }) .runTakeUp
    (fun s => s.on SHT_CTRL_run && s.power == 4 && s.clk.a.locked && !s.sht.running && s.pwr.step.isNone) (fun _ t =>
    t.sht.running && t.sht.sampled && !t.sht.accepted && t.sht.frameNo == 6 && t.get SHT_STATUS_streaming == 1 &&
    t.sht.next.any fun f => f.first && f.number == 7) = true := by decide +kernel

theorem wit_runStop : works (stream { next := some rolling, running := true, accepted := true, cur := some global, reading := true }) .runStop
    (fun s => s.sht.phase == 0 && s.sht.next == some rolling && rolling.mode != 1) (fun s t =>
    t.get SHT_CTRL_run == 0 && !t.sht.running && t.sht.next.isNone && t.get SHT_STATUS_integrating == 0 &&
    t.sht.reading && t.sht.cur == s.sht.cur) = true := by decide +kernel

theorem wit_rowSlot :
    let s := stream { cur := some rolling, reading := true, slot := 2095 } [(RDO_STATUS_rest_pos, 224)]
    s.sht.cur = some rolling ∧ s.sht.reading = true ∧ s.sht.slot < rolling.slots ∧ rolling.serves 2095 = some (2095, 0) := by
  decide +kernel

theorem wit_markNow : works (withAsked [9] (stream { cur := some rolling, reading := true })) (.markMetadata 3)
    (fun s => !(s.due 9).isEmpty && s.sht.reading) (fun s t =>
    t.sht == { s.sht with cur := some { rolling with marks := 8 } }) = true := by decide +kernel

theorem wit_markNext : works (withAsked [6] (stream { cur := some rolling })) (.markMetadata 0)
    (fun s => !(s.due 6).isEmpty && !s.sht.reading) (fun s t => t.sht == { s.sht with nextMarks := 1 }) = true := by
  decide +kernel

/-- Window 31: 16 by 8 pixels at (0, 0), 12 bits, ring 2; its first rows are corrected. -/
def windowDev (sel : Byte := 0#8) (f : Frame := rolling) : State :=
  { sectioned [{ type := 3, inst := 0, body := List.replicate (31 * 32) 0#8 ++ [1#8, 0#8, 0#8, sel, 0#8, 0#8, 0#8, 0#8, 16#8, 0#8, 8#8,
      0#8, 2#8, 0#8, 1#8, 0#8, 0#8, 0#8, 1#8, 0#8] ++ List.replicate 12 0#8 }]
      (stream { cur := some f, reading := true } [(WIN_ENABLE_en 0, 2 ^ 31), (RING_CTRL_en 2, 1)]) with
    pipe := { rows := (List.range 16).map fun k => (4 * (k / 2) + k % 2, List.replicate 16 (100 + k : Int)) } }

theorem wit_windowRow : works windowDev (.windowRowAvailable 31 0 [])
    (fun s => (s.window? 31).any (fun w => s.samples 31 w 7 && decide (0 < w.outH) && (s.outRow rolling w 0).isSome) &&
      s.sht.cur == some rolling && s.sht.reading && (s.winFrame? 31).isNone) (fun _ t =>
    (t.winFrame? 31).any fun x => x.number == 7 && x.next == 1) = true := by decide +kernel

/-- A rolling frame of two exposures. -/
def merged : Frame := { rolling with exps := 2, x := [100, 200], eff := [100, 200], lags := [0, 1], ratios := [16384, 32768] }

theorem wit_mergedRow : [1, 2].map (fun b => works (windowDev 4#8 merged) (.windowRowAvailable 31 0 [(128, b)])
    (fun s => (s.window? 31).any (fun w => w.expSel == 4 && s.samples 31 w 7 && decide (0 < w.outH) && (s.outRow merged w 0).isSome) &&
      s.sht.cur == some merged && s.sht.reading && (s.winFrame? 31).isNone) (fun _ t =>
    t.get SAFE_ECC_uncorrectable == b - 1 && t.get SAFE_ECC_corrected == 2 - b && t.get SAFE_ECC_LAST_memory == 8 * (b - 1))) = [true, true] := by
  decide +kernel

/-- Triggers are honoured: trig_mode, run and STREAM. -/
def trigDev (f : Frame) (src : Nat) (l : List (Fld × Nat) := []) (y : Sync := {}) : State :=
  crossed (fun e => { e with sync := y }) (stream { next := some f, running := true }
    ((SHT_CTRL_trig_mode, 1) :: (SHT_TRIG_CFG_src, src) :: l))

theorem wit_pinEdge : works (trigDev rolling 3 [(EVF_FIRE_DELAY_delay 0, 40)]) (.triggerPinEdge 3 true 7 0)
    (fun s => s.selects 3 true && s.fireDelay 0 != 0) (fun _ t => t.level 27 &&
    t.evf.sync.releases.map (fun r => (r.pin, r.rising, r.delay)) == [(3, true, 40)]) = true := by decide +kernel

theorem wit_released : works (trigDev { rolling with first := true } 3 [] { releases := [{ pin := 3, rising := true, stamp := 1, delay := 40 }] })
    (.compensatedRelease 0) (fun s => s.selects 3 true && s.trigHonoured && !s.sht.accepted && s.sht.phase == 0) (fun _ t =>
    t.evf.sync.releases.isEmpty && t.sht.accepted && t.get SHT_STATUS_integrating == 1 &&
    t.sht.next.any fun g => g.triggered && !g.forced) = true := by decide +kernel

theorem wit_frameTask : works (withAsked [1] (trigDev { rolling with first := true } 5)) (.startAFrame 0)
    (fun s => !(s.due 1).isEmpty && s.get SHT_TRIG_CFG_src == 5 && s.trigHonoured && !s.sht.accepted && s.sht.phase == 0)
    (fun _ t => t.sht.accepted && t.get SHT_STATUS_integrating == 1 && t.sht.next.any fun g => g.triggered && !g.forced) = true := by
  decide +kernel

theorem wit_globalTask : works (withAsked [0] (trigDev { global with first := true } 5)) (.startAGlobalExposure 0)
    (fun s => !(s.due 0).isEmpty && s.get SHT_TRIG_CFG_src == 5 && s.trigHonoured && !s.sht.accepted && s.sht.phase == 0)
    (fun _ t => t.sht.accepted && t.sht.next.any (·.triggered)) = true := by decide +kernel

theorem wit_taskTooEarly : works (withAsked [1] { trigDev { rolling with minPix := 101 } 5 [(SHT_TRIG_IGNORED_count, 65535)] with
      sht := { next := some { rolling with minPix := 101 }, cur := some rolling, running := true } }) (.startAFrame 0)
    (fun s => !(s.due 1).isEmpty && s.get SHT_TRIG_CFG_src == 5 && s.trigHonoured &&
      !({ rolling with minPix := 101 } : Frame).accepts s.sht.cur 0) (fun s t =>
    t.sht == s.sht && t.on SHT_IRQ_STAT_trig_ignored && t.get SHT_TRIG_IGNORED_count == 65535) = true := by decide +kernel

/-! ### Readout -/

theorem wit_retireNow : works (dev []) (.rdoRetire 0xD700E017#32)
    (fun s => s.shaped && !(s.bank 23).retired.contains 224 && s.rdo.pending.isEmpty && !s.slotsRun) (fun _ t =>
    t.get RDO_RETIRE_RESULT_cause == 0x62 && t.get RDO_RETIRE_RESULT_pending == 0 && (t.bank 23).retired.contains 224 &&
    t.on RDO_IRQ_STAT_retired) = true := by decide +kernel

theorem wit_retireLater : works { dev [] with sht := { reading := true } } (.rdoRetire 0xD700E017#32)
    (fun s => !(s.bank 23).retired.contains 224 && s.rdo.pending.isEmpty && s.slotsRun) (fun s t =>
    t.get RDO_RETIRE_RESULT_cause == 0x62 && t.get RDO_RETIRE_RESULT_pending == 1 && t.rdo.banks == s.rdo.banks &&
    t.rdo.pending == [{ bank := 23, slice := 224, cause := 0x62 }]) = true := by decide +kernel

theorem wit_calSnapshot : works { dev [(CAL_SEL_bank, 23), (CAL_SEL_slice, 224)] with
      rdo := { snapWaits := true, banks := List.replicate 24 { slices := List.replicate 225 { off := -64, gain := 63 } } } } .calSnapshot
    (fun s => s.rdo.snapWaits && decide (s.get CAL_SEL_bank ≤ 23) && decide (s.get CAL_SEL_slice ≤ 224)) (fun _ t =>
    !t.rdo.snapWaits && t.get CAL_SNAP_STATUS_ready == 1 && t.get CAL_SNAP_STATUS_cause == 0 &&
    t.on CAL_IRQ_STAT_snapshot && t.get CAL_SNAP_TRIM_off == 0xC0 && t.get CAL_SNAP_TRIM_gain == 63) = true := by
  decide +kernel

/-! ### Near-pixel compute -/

/-- An instruction word from its opcode and (place, value) fields (R383). -/
def word (op : Nat) (fs : List (Nat × Nat)) : Nat := op * 2 ^ 58 + (fs.map fun f => f.2 * 2 ^ f.1).sum

/-- A program of three NOPs around `w`: array 0, one tap of 4 by 2 elements, ring 2, payload at most 64 bytes, scratch at
0x1000 of 32768 bytes, tiles 0 and 1. -/
def program (w : Nat) : List Byte :=
  [1#8, 1#8, 2#8, 0#8, 64#8, 0#8, 4#8, 0#8] ++ leBytes 4 0x1000 ++ leBytes 4 0x8000 ++ [0#8, 2#8] ++ List.replicate 14 0#8 ++
  [5#8, 0#8, 4#8, 0#8, 2#8, 0#8, 0#8, 0#8] ++ leBytes 4 0x100 ++ leBytes 4 0x200 ++ List.replicate 48 0#8 ++
  leBytes 8 0 ++ leBytes 8 w ++ leBytes 16 0

/-- A running run of program 15 at its second word. -/
def run1 (w : Nat) : Run := { prog := 15, frame := 7, body := program w, phase := .running, pc := 1, mode := 1 }

/-- The device with runs, tensor memory, and program 15 in force. -/
def npcDev (rs : List Run) (mem : List Host.Cell := []) (l : List (Fld × Nat) := []) : State :=
  let s := ((CLK_SYNA_OUT_CFG_en 2, 1) :: l).foldl (fun s x => s.putBoth x.1 x.2) (dev [])
  { sectioned (rs.take 1 |>.map fun r => { type := 7, inst := 15, body := r.body }) s with
    npc := { runs := rs }, tensorMem := mem, clk := { a := { running := true, locked := true } } }

/-- The command meets State.executes of the run and takes it to `q`, which leaves memory. -/
def goes (c : Instr) (op w : Nat) (r q : Run) (mem : List Host.Cell := []) (l : List (Fld × Nat) := []) : Bool :=
  works (npcDev [r] mem l) c
    (fun s => s.npcClock && s.runIn? 15 .running == some r && codeWord r.body r.pc == w && bits w 58 6 == op && !wordIllegal w &&
      (s.badAt 3 (s.codeBase 15 + 8 * r.pc) 8).isNone && decide (q.pc < q.plan.words))
    fun _ t => t.runIn? 15 .running == some q && t.tensorMem == mem

/-- Window 0 feeds tap 5 of program 15 and has delivered its rows of frame 7. -/
def tapDev (ph : RunPhase) : State :=
  { npcDev [{ run1 0 with phase := ph }] [] [(NPC_CTRL_en, 1), (NPC_PROG_EN_en, 2 ^ 15), (PWR_BLOCK_EN_npc, 1)] with
    cfg := { sections := [{ type := 7, inst := 15, body := program 0 }, { type := 3, inst := 0, body := [5#8, 0#8, 0#8, 0#8,
      0#8, 0#8, 0#8, 0#8, 16#8, 0#8, 8#8, 0#8, 2#8, 0#8, 1#8, 0#8, 5#8, 0#8, 1#8, 0#8] ++ List.replicate 1004 0#8 }] }
    wins := [(0, { number := 7, next := 8 })] }

theorem wit_tapComplete : works (tapDev .waiting) (.tapComplete 15 0)
    (fun s => s.npcClock && (s.npc.runs.find? fun r => r.prog == 15 && r.phase == .waiting && s.tapWhole r 0 && !r.taps.contains 0).any
      fun r => r.taps.length + 1 == r.plan.taps.length) (fun _ t =>
    t.runIn? 15 .ready == some { run1 0 with taps := [0], phase := .ready, gated := false }) = true := by decide +kernel

theorem wit_runStart : works (tapDev .ready) (.runStart 15)
    (fun s => s.npcClock && (s.runIn? 15 .ready).any (fun r => !s.runDisabled r) && s.npc.runs.length == 1 && s.npc.loads.isEmpty) (fun s t =>
    t.runIn? 15 .running == some { run1 0 with phase := .running, satTrap := false } && t.tensorMem == s.tensorMem) = true := by
  decide +kernel

theorem wit_deadlines : ([(.waiting, 0x72), (.ready, 0x71), (.running, 0x70), (.halted, 0x7B)] : List (RunPhase × Nat)).all (fun x =>
    works (npcDev [{ run1 0 with phase := x.1, deadline := some 3, cause := 0x7B }]) (.runDeadline 15)
      (fun s => (s.npc.runs.find? fun r => r.prog == 15 && r.deadline.isSome).isSome && s.npc.loads.isEmpty) fun _ t =>
      t.get (NPC_PROG_STAT_cause 15) == x.2 && t.get (NPC_PROG_FRAME_frame 15) == 7 && t.npc.runs.isEmpty) = true := by
  decide +kernel

theorem wit_npcNop : goes (.npcNop 15) 0 (word 0 []) (run1 (word 0 [])) { run1 (word 0 []) with pc := 2, issue := 1 } = true := by
  decide +kernel

theorem wit_setmode : goes (.setmode 15) 1 (word 1 [(0, 1)]) (run1 (word 1 [(0, 1)]))
    { run1 (word 1 [(0, 1)]) with pc := 2, issue := 1, pendingMode := some 1 } = true := by decide +kernel

theorem wit_salu : goes (.salu 15) 2 (word 2 [(54, 15), (50, 15), (46, 14), (42, 7)])
    { run1 (word 2 [(54, 15), (50, 15), (46, 14), (42, 7)]) with x := List.replicate 14 0 ++ [31, 2 ^ 31] }
    { run1 (word 2 [(54, 15), (50, 15), (46, 14), (42, 7)]) with x := List.replicate 14 0 ++ [31, 2 ^ 32 - 1], pc := 2, issue := 1 } = true := by
  decide +kernel

theorem wit_salui : goes (.salui 15) 3 (word 3 [(54, 0), (50, 0), (42, 11), (0, 2 ^ 32 - 1)])
    (run1 (word 3 [(54, 0), (50, 0), (42, 11), (0, 2 ^ 32 - 1)]))
    { run1 (word 3 [(54, 0), (50, 0), (42, 11), (0, 2 ^ 32 - 1)]) with pc := 2, issue := 1 } = true := by decide +kernel

theorem wit_get : goes (.get 15) 4 (word 4 [(54, 3), (42, 5), (0, 0)]) (run1 (word 4 [(54, 3), (42, 5), (0, 0)]))
    { run1 (word 4 [(54, 3), (42, 5), (0, 0)]) with x := [0, 0, 0, 2] ++ List.replicate 12 0, pc := 2, issue := 1 } = true := by
  decide +kernel

/-- x1 is 0x8FFE, near the end of the scratch region, and x2 is 0xABCD1234. -/
def regs12 : List Nat := [0, 0x8FFE, 0xABCD1234] ++ List.replicate 13 0

theorem wit_ld : goes (.ld 15) 5 (word 5 [(54, 3), (50, 1), (43, 3), (0, 0)])
    { run1 (word 5 [(54, 3), (50, 1), (43, 3), (0, 0)]) with x := regs12 }
    { run1 (word 5 [(54, 3), (50, 1), (43, 3), (0, 0)]) with
      x := [0, 0x8FFE, 0xABCD1234, 0xFFFFFF80] ++ List.replicate 12 0, pc := 2, issue := 2 }
    [(0x8FFE, 0x80#8), (0x8FFF, 0xFF#8)] = true := by decide +kernel

theorem wit_st : works (npcDev [{ run1 (word 6 [(50, 1), (46, 2), (43, 4), (0, 2 ^ 16 - 2)]) with x := regs12 }] [(0x9000, 1#8)])
    (.st 15) (fun s => s.wf && (s.runIn? 15 .running).any fun r => (r.memCheck (codeWord r.body 1) true).isNone &&
      r.memAddr (codeWord r.body 1) == 0x8FFC) (fun _ t =>
    t.tensorMem == [(0x8FFC, 0x34#8), (0x8FFD, 0x12#8), (0x8FFE, 0xCD#8), (0x8FFF, 0xAB#8), (0x9000, 1#8)] &&
    (t.runIn? 15 .running).any fun q => q.pc == 2 && q.issue == 2) = true := by decide +kernel

theorem wit_tload : works (npcDev [{ run1 (word 0x13 [(50, 1)]) with x := [0, 0x8E00] ++ List.replicate 14 0 }] [(0x8FFF, 0x80#8)])
    (.tload 15) (fun s => s.wf && (s.runIn? 15 .running).any fun r => (r.extent false 0x8E00 0x8FFF).isNone) (fun s t =>
    t.tensorMem == s.tensorMem && (t.runIn? 15 .running).any fun q => q.pc == 2 && q.issue == 16 && q.arrayFrom == 16 &&
      q.table == List.replicate 255 0 ++ [-32768]) = true := by decide +kernel

theorem wit_emit : goes (.emit 15) 0x14 (word 0x14 [(50, 1), (46, 3)])
    { run1 (word 0x14 [(50, 1), (46, 3)]) with x := [0, 0x8FD0, 0, 48] ++ List.replicate 12 0 }
    { run1 (word 0x14 [(50, 1), (46, 3)]) with
      x := [0, 0x8FD0, 0, 48] ++ List.replicate 12 0, payload := List.replicate 47 0#8 ++ [9#8], pc := 2, issue := 5 }
    [(0x8FFF, 9#8)] = true := by decide +kernel

theorem wit_loop : goes (.loop 15) 8 (word 8 [(50, 0), (32, 1), (0, 2)]) (run1 (word 8 [(50, 0), (32, 1), (0, 2)]))
    { run1 (word 8 [(50, 0), (32, 1), (0, 2)]) with pc := 2, issue := 1, loops := [{ first := 2, last := 3, count := 2 }] } = true := by
  decide +kernel

theorem wit_loopWraps : goes (.loop 15) 8 (word 8 [(50, 1), (32, 0), (0, 1)])
    { run1 (word 8 [(50, 1), (32, 0), (0, 1)]) with x := [0, 2 ^ 31 - 1] ++ List.replicate 14 0 }
    { run1 (word 8 [(50, 1), (32, 0), (0, 1)]) with x := [0, 2 ^ 31 - 1] ++ List.replicate 14 0, pc := 3, issue := 1 } = true := by
  decide +kernel

theorem wit_loopSkipped : goes (.loop 15) 8 (word 8 [(50, 0), (32, 0), (0, 2 ^ 32 - 1)]) (run1 (word 8 [(50, 0), (32, 0), (0, 2 ^ 32 - 1)]))
    { run1 (word 8 [(50, 0), (32, 0), (0, 2 ^ 32 - 1)]) with pc := 3, issue := 1 } = true := by decide +kernel

theorem wit_br : goes (.br 15) 9 (word 9 [(50, 1), (43, 3), (0, 2 ^ 16 - 1)])
    { run1 (word 9 [(50, 1), (43, 3), (0, 2 ^ 16 - 1)]) with x := [0, 2 ^ 31] ++ List.replicate 14 0, loops := [{ first := 1, last := 2, count := 5 }] }
    { run1 (word 9 [(50, 1), (43, 3), (0, 2 ^ 16 - 1)]) with x := [0, 2 ^ 31] ++ List.replicate 14 0, pc := 0, issue := 1 } = true := by
  decide +kernel

theorem wit_brNotTaken : goes (.br 15) 9 (word 9 [(50, 0), (43, 2), (0, 1)]) (run1 (word 9 [(50, 0), (43, 2), (0, 1)]))
    { run1 (word 9 [(50, 0), (43, 2), (0, 1)]) with pc := 2, issue := 1 } = true := by decide +kernel

theorem wit_npcEnd : works (npcDev [{ run1 (word 10 []) with issue := 9, payload := [5#8] }] [] [(RING_DESC1_spool_kib 2, 1)]) (.npcEnd 15)
    (fun s => s.npcClock && s.npc.loads.isEmpty && (s.runIn? 15 .running).any fun r => r.prog == 15 && codeWord r.body r.pc == word 10 [] &&
      !wordIllegal (word 10 []) && (s.badAt 3 (s.codeBase 15 + 8 * r.pc) 8).isNone && !r.delayed && decide (37 ≤ s.spoolFree r.plan.ring))
    (fun s t => t.get (NPC_PROG_TIME_cycles 15) == 10 && t.on NPC_IRQ_STAT_run_done && t.npc.runs.isEmpty &&
      (s.npc.runs.head?.any fun r => (t.ring r.plan.ring).spool.any fun k => k.type == 5 && k.frame == 7 && k.payload.drop 16 == [5#8])) =
    true := by decide +kernel

theorem wit_waitevTaken : goes (.waitev 15) 0x18 (word 0x18 [(0, 7)]) { run1 (word 0x18 [(0, 7)]) with released := true }
    { run1 (word 0x18 [(0, 7)]) with pc := 2, issue := 1 } = true := by decide +kernel

theorem wit_waitevFlag : goes (.waitev 15) 0x18 (word 0x18 [(0, 7)]) (run1 (word 0x18 [(0, 7)]))
    { run1 (word 0x18 [(0, 7)]) with pc := 2, issue := 1 } [] [(NPC_FLAGS_flags, 128)] = true := by decide +kernel

theorem wit_waitevClears : works (npcDev [run1 (word 0x18 [(0, 7)])] [] [(NPC_FLAGS_flags, 192)]) (.waitev 15)
    (fun s => (s.runIn? 15 .running).any (fun r => !r.released) && bit (s.get NPC_FLAGS_flags) 7) (fun _ t =>
    t.get NPC_FLAGS_flags == 64) = true := by decide +kernel

theorem wit_waitevWaits : goes (.waitev 15) 0x18 (word 0x18 [(0, 7)]) (run1 (word 0x18 [(0, 7)]))
    { run1 (word 0x18 [(0, 7)]) with waits := some 7, delayed := true } = true := by decide +kernel

theorem wit_sigev : works (npcDev [run1 (word 0x19 [(0, 7)])]) (.sigev 15)
    (fun s => (s.runIn? 15 .running).isSome && !s.evf.pulses.contains 73) (fun _ t =>
    t.evf.pulses.contains 73 && (t.runIn? 15 .running).any (·.pc == 2)) = true := by decide +kernel

theorem wit_sigevHeld : works (crossed (fun e => { e with pulses := [73] }) (npcDev [run1 (word 0x19 [(0, 7)])])) (.sigev 15)
    (fun s => s.npcClock && (s.runIn? 15 .running).isSome && s.evf.pulses.contains 73) (fun s t =>
    t.runIn? 15 .running == some { run1 (word 0x19 [(0, 7)]) with delayed := true } && t.evf == s.evf) = true := by decide +kernel

theorem wit_loopBack : ({ run1 0 with loops := [{ first := 0, last := 2, count := 1 }, { first := 1, last := 1, count := 2 }] } : Run).advanced
    none (some 0) = { run1 0 with
      loops := [{ first := 0, last := 2, count := 1 }, { first := 1, last := 1, count := 1 }], pendingMode := some 0 } := by
  decide +kernel

theorem wit_loopOuter : ({ run1 0 with loops := [{ first := 0, last := 1, count := 4 }, { first := 2, last := 3, count := 2 }] } : Run).advanced
    none none = { run1 0 with
      pc := 0, loops := [{ first := 0, last := 1, count := 3 }, { first := 2, last := 3, count := 2 }] } := by
  decide +kernel

theorem wit_loopLeft : (({ run1 0 with loops := [{ first := 1, last := 1, count := 1 }], pendingMode := some 0 } : Run).advanced none none) =
    { run1 0 with pc := 2, mode := 0 } := by decide +kernel

/-- A matrix step of one product: x1 the stride of A (one byte), x2 operand A, x3 operand B; the tile is of index 1. -/
def mmulWord (op : Nat) : Nat := word 0x10 [(54, 2), (50, 1), (46, 3), (42, 0), (38, 0), (30, 1), (18, 0), (17, op), (16, 1)]

/-- The run of a matrix step or of what follows it. -/
def matRun (w : Nat) (gs : List Group) : Run :=
  { run1 w with x := [0, 1, 0x1000, 0x1100, 0x2000] ++ List.replicate 11 0, groups := gs }

theorem wit_mmul : (let s := npcDev [matRun (mmulWord 1) []] [(0x101F, 0xFF#8), (0x111F, 0xFE#8)]
    s.wf && (s.runIn? 15 .running).any fun r => codeWord r.body r.pc == mmulWord 1 && !wordIllegal (mmulWord 1) &&
      r.indexTiles (mmulWord 1) == some [1] && (r.mmulCheck (mmulWord 1) [1]).isNone && !r.satTrap) = true := by decide +kernel

theorem wit_discard : works (npcDev [matRun (word 0x12 [(38, 0), (30, 1)]) [{ tile := 1, sums := List.replicate 1024 5 }]]) (.discard 15)
    (fun s => (s.runIn? 15 .running).any fun r => r.indexTiles (word 0x12 [(38, 0), (30, 1)]) == some [1] && (r.group? 1).isSome)
    (fun _ t => (t.runIn? 15 .running).any fun q => q.pc == 2 && (q.group? 1).isNone) = true := by decide +kernel

/-- A POST of tile 0 to int8 rows at x2, x1 bytes apart, its parameters at x4. -/
def postWord : Nat := word 0x11 [(56, 1), (52, 2), (48, 5), (44, 4), (28, 0)]

theorem wit_post : (let s := npcDev [{ matRun postWord [{ tile := 0, sums := List.replicate 1024 3 }] with
      x := [0, 1, 0x1000, 0x1100, 0x2000, 32] ++ List.replicate 10 0 }]
    s.wf && (s.runIn? 15 .running).any fun r => codeWord r.body r.pc == postWord && !wordIllegal postWord && !postIllegal postWord &&
      r.tiles 0 == some [0] && (r.postExtents postWord 32).isNone && (r.group? 0).isSome) = true := by decide +kernel

theorem wit_rhe : rhe 5 1 = 2 ∧ rhe 7 1 = 4 ∧ rhe (-5) 1 = -2 ∧ rhe (-3) 1 = -2 ∧ rhe 9 0 = 9 := by decide

theorem wit_postElement : postElement { ew := 0, mr := 0, sr := 0, table := none, z := -128, otype := 0 } 255 1 0 0 0 = (127, false) ∧
    postElement { ew := 0, mr := 0, sr := 0, table := none, z := -128, otype := 0 } 256 1 0 0 0 = (127, true) := by decide

theorem wit_illegal : works (npcDev [run1 (word 1 [(1, 1)])]) (.illegalInstruction 15)
    (fun s => s.npcClock && (s.runIn? 15 .running).any (fun r => wordIllegal (codeWord r.body r.pc)) && !s.on NPC_DBG_halt_en && s.npc.loads.isEmpty)
    (fun _ t => t.get (NPC_EXC_INFO_cause 15) == 0x74 && t.get (NPC_EXC_INFO_pc 15) == 1 && t.get (NPC_PROG_STAT_cause 15) == 0x74 &&
      t.on NPC_IRQ_STAT_exception && t.npc.runs.isEmpty) = true := by decide +kernel

theorem wit_halts : works (npcDev [run1 (word 1 [(1, 1)])] [] [(NPC_DBG_halt_en, 1)]) (.illegalInstruction 15)
    (fun s => s.npcClock && (s.runIn? 15 .running).any (fun r => wordIllegal (codeWord r.body r.pc)) && s.on NPC_DBG_halt_en)
    (fun _ t => t.runIn? 15 .halted == some { run1 (word 1 [(1, 1)]) with phase := .halted, cause := 0x74 } &&
      t.on NPC_IRQ_STAT_halted) = true := by decide +kernel

/-- A halted run of program 15, which NPC_DBG selects. -/
def haltedDev : State := npcDev [{ run1 0 with phase := .halted, cause := 0x74 }] [] [(NPC_DBG_prog, 15)]

theorem wit_resume : works haltedDev .resume (fun s => s.get NPC_DBG_prog == 15 && (s.runIn? 15 .halted).any (fun r => !r.trapped &&
      decide (r.pc < r.plan.words))) (fun _ t => t.runIn? 15 .running == some { run1 0 with delayed := true }) = true := by decide +kernel

theorem wit_dbgEnd : works haltedDev .npcDbgEnd (fun s => s.get NPC_DBG_prog == 15 && (s.runIn? 15 .halted).isSome && s.npc.loads.isEmpty)
    (fun _ t => t.get (NPC_PROG_STAT_cause 15) == 0x74 && t.npc.runs.isEmpty) = true := by decide +kernel

theorem wit_tensorOutside : works (npcDev [run1 0]) (.tensorWrite 0xFFC 0x04030201#32)
    (fun s => s.wf && s.tensorRegions.all fun g => decide (0x1000 ≤ g.1) || decide (g.1 + g.2 ≤ 0xFFC)) (fun s t =>
    t.tensorMem == [(0xFFC, 1#8), (0xFFD, 2#8), (0xFFE, 3#8), (0xFFF, 4#8)] && sameBut s t []) = true := by decide +kernel

theorem wit_tensorInside : works (npcDev [run1 0]) (.tensorWrite 0x1000 5#32)
    (fun s => s.tensorRegions.any (fun g => decide (g.1 < 0x1004) && decide (0x1000 < g.1 + g.2)) && s.npc.runs.any Run.holds)
    (fun s t => t == s) = true := by decide +kernel

theorem wit_tensorDisabled : works (npcDev [{ run1 0 with phase := .waiting }] [] [(NPC_CTRL_en, 0)]) (.tensorWrite 0x1000 5#32)
    (fun s => !s.lon NPC_CTRL_en && s.npc.runs.all fun r => !r.holds) (fun _ t => t.tensorMem == [(0x1000, 5#8)]) = true := by
  decide +kernel

/-! ### The Arcade -/

/-- The Arcade with a value of region 1. -/
def regionDev (st : Nat) (g : Region) (l : List (Fld × Nat) := []) (mem : List Host.Cell := []) : State :=
  { arcDev st l with arc := { regions := if g = {} then [] else [(1, g)] }, arcadeMem := mem }

/-- Region 1 exists, and no freeze or re-arm of this cycle waits. -/
def hasRegion (s : State) : Bool :=
  (s.regionDef? 1).isSome && !s.pending.contains .freezeTheArcade && !s.pending.contains .rearmTheArcadeRecorder && !s.freezeFollows 1

theorem wit_arcRearm : works (regionDev 3 { stored := 4, abandoned := 2 } [(ARC_REG_STATE_generation 1, 255)] [(9, 1#8)]) (.arcRearm 1)
    (fun s => hasRegion s && !s.arc.frozenNow.contains 1 && (s.region 1).pass.isNone) (fun s t =>
    t.regionState 1 == 1 && t.region 1 == { abandoned := 2 } && t.get ARC_CMD_RESULT_cause == 0 &&
    t.get (ARC_REG_STATE_generation 1) == 0 && t.arcadeMem == s.arcadeMem) = true := by decide +kernel

theorem wit_arcFreeze : works (timed 512 (regionDev 1 { storing := some { slot := 0, number := 9, stamp := 0, epoch := 0, synced := false } }))
    (.arcFreeze 1) (fun s => hasRegion s && s.regionState 1 == 1) (fun _ t =>
    t.regionState 1 == 2 && t.get ARC_CMD_RESULT_cause == 0 && t.on ARC_IRQ_STAT_triggered && t.trigFrame 1 == 9 &&
    t.get64 (aARC_REG_TRIG_STAMP_LO 1) (aARC_REG_TRIG_STAMP_HI 1) == 2 && !(t.region 1).trigNext &&
    (t.region 1).postLeft == 2) = true := by decide +kernel

theorem wit_arcFreezeNext : works (regionDev 1 {}) (.arcFreeze 1) (fun s => hasRegion s && s.regionState 1 == 1 && (s.region 1).storing.isNone)
    (fun _ t => t.regionState 1 == 2 && (t.region 1).trigNext) = true := by decide +kernel

/-- Slot 2 of region 1 holds the complete frame 9, one row of 4 bytes, which is the trigger frame. -/
def frozenDev (g : Region) (l : List (Fld × Nat) := []) : State :=
  regionDev 3 g ([({ addr := aARC_REG_TRIG_FRAME_LO 1, lo := 0, w := 32 }, 9), (ARC_REG_STATE_generation 1, 6)] ++ l)
    [(0x4800, 2#8), (0x4801, 6#8), (0x4802, 1#8), (0x4804, 4#8), (0x4808, 9#8), (0x4840, 0xEE#8)]

theorem wit_arcReplay : works (frozenDev {} [(ARC_REG_STATE_pass 1, 65535)]) (.arcReplay 1)
    (fun s => hasRegion s && s.regionState 1 == 3 && (s.regionDef? 1).any (fun d => s.rangeSlots 1 d == [2]) &&
      s.regionDefs.all fun e => e.1 == 1 || e.2.ring != 3) (fun _ t =>
    (t.region 1).pass == some [2] && t.get (ARC_REG_STATE_pass 1) == 0 && t.get (ARC_REG_STATE_passing 1) == 1 &&
    t.get ARC_STATUS_pass_running == 1 && t.get ARC_CMD_RESULT_cause == 0) = true := by decide +kernel

theorem wit_arcEndPass : works (regionDev 3 { pass := some [2] }) (.arcEndPass 1) (fun s => hasRegion s && (s.region 1).pass.isSome)
    (fun _ t => (t.region 1).pass.isNone && t.get (ARC_REG_STATE_passing 1) == 0 && t.on ARC_IRQ_STAT_replay_done &&
      t.get ARC_CMD_RESULT_cause == 0) = true := by decide +kernel

theorem wit_arcEndLater : works (regionDev 3 { pass := some [2], sending := some { slot := 2, left := 4, reserved := 0 } }) (.arcEndPass 1)
    (fun s => hasRegion s && (s.region 1).sending.isSome) (fun s t => t.region 1 == { s.region 1 with ending := true } &&
      t.get ARC_CMD_RESULT_cause == 0) = true := by decide +kernel

theorem wit_rearmMeetsFreeze : [{ regionDev 3 {} with pending := [.arcFreeze 1] }, { regionDev 3 {} with arc := { frozenNow := [1] } }].all (fun s =>
    works s (.arcRearm 1) (fun s => s.arc.frozenNow.contains 1 || s.freezeFollows 1) fun s t => t.get ARC_CMD_RESULT_cause == 0xD3 &&
      t.regionState 1 == 3 && t.get (ARC_REG_COUNTS_rearm_ignored 1) == 1 && t.arc == s.arc) = true := by decide +kernel

theorem wit_arcReserved : works (regionDev 1 { stored := 3 }) (.arcCmdReservedOp 15 1) (fun _ => true) (fun s t =>
    t.get ARC_CMD_RESULT_cause == 0xD9 && t.on ARC_IRQ_STAT_cmd_refused && t.arc == s.arc) = true := by decide +kernel

theorem wit_arcNoRegion : [Instr.arcRearm 2, .arcFreeze 2, .arcReplay 2, .arcEndPass 2].all (fun c =>
    works (regionDev 1 { stored := 3 }) c (fun s => (s.regionDef? 2).isNone) fun s t =>
      t.get ARC_CMD_RESULT_cause == 0xD0 && t.on ARC_IRQ_STAT_cmd_refused && t.arc == s.arc && t.rings == s.rings) = true := by
  decide +kernel

theorem wit_rearmInPass : works (regionDev 3 { pass := some [2] }) (.arcRearm 1)
    (fun s => hasRegion s && !s.arc.frozenNow.contains 1 && (s.region 1).pass.isSome) (fun s t =>
    t.get ARC_CMD_RESULT_cause == 0xD3 && t.regionState 1 == 3 && t.arc == s.arc) = true := by decide +kernel

theorem wit_freezeOutside : works (regionDev 2 {} [(ARC_REG_COUNTS_freeze_ignored 1, 65535)]) (.arcFreeze 1)
    (fun s => hasRegion s && s.regionState 1 != 1) (fun _ t =>
    t.get ARC_CMD_RESULT_cause == 0xD1 && t.regionState 1 == 2 && t.get (ARC_REG_COUNTS_freeze_ignored 1) == 65535) = true := by
  decide +kernel

theorem wit_replayOutside : works (regionDev 2 {}) (.arcReplay 1) (fun s => hasRegion s && s.regionState 1 != 3) (fun s t =>
    t.get ARC_CMD_RESULT_cause == 0xD1 && t.arc == s.arc) = true := by decide +kernel

theorem wit_replayEmpty : works (regionDev 3 {}) (.arcReplay 1)
    (fun s => hasRegion s && s.regionState 1 == 3 && (s.regionDef? 1).any fun d => (s.rangeSlots 1 d).isEmpty) (fun s t =>
    t.get ARC_CMD_RESULT_cause == 0xD2 && t.arc == s.arc) = true := by decide +kernel

/-- Regions 0 and 1 share ring 3, and region 0 sends a pass. -/
def busyRing : State :=
  let s := frozenDev {}
  { s with
    cfg := { sections := [{ arcSection with body := ((arcSection.body.take 17 ++ [3#8]) ++ arcSection.body.drop 18) }] }
    arc := { regions := [(0, { pass := some [0] })] } }

theorem wit_replayBusy : works busyRing (.arcReplay 1)
    (fun s => hasRegion s && s.regionState 1 == 3 && (s.regionDef? 1).any (fun d => !(s.rangeSlots 1 d).isEmpty) &&
      s.regionDefs.any fun e => e.1 == 0 && e.2.ring == 3 && (s.region 0).pass.isSome) (fun s t =>
    t.get ARC_CMD_RESULT_cause == 0xD4 && t.arc == s.arc) = true := by decide +kernel

/-- A frame whose last row has been stored into slot 3. -/
def wholeFrame : Storing := { slot := 3, number := 9, stamp := 0, epoch := 0, synced := true, rows := 1, bytes := 4, whole := true }

theorem wit_frameComplete : works (regionDev 1 { storing := some wholeFrame, stored := 7, abandoned := 2 } [] [(0x4BFF, 1#8), (0x4C40, 5#8)]) (.arcFrameComplete 1)
    (fun s => hasRegion s && (s.region 1).storing.any (·.whole) && s.wf) (fun _ t =>
    (t.region 1).storing.isNone && (t.region 1).stored == 8 && (t.region 1).abandoned == 0 &&
    cellGet t.arcadeMem 0x4C00 == 2#8 && cellGet t.arcadeMem 0x4BFF == 1#8 && cellGet t.arcadeMem 0x4C40 == 5#8) = true := by
  decide +kernel

theorem wit_replayOffer : works (frozenDev { pass := some [2] } [(RING_DESC1_spool_kib 3, 16)]) (.replayFrameOffer 1 [])
    (fun s => (s.regionDef? 1).any (fun d => s.acceptsReplay d.ring (replayBytes (s.slot d 2)) && !(s.ring d.ring).restore &&
      decide (0 < (s.slot d 2).rows ∧ 0 < (s.slot d 2).bytes)) && (s.region 1).pass == some [2] && (s.region 1).sending.isNone)
    (fun s t => (t.region 1).pass == some [] && ((t.region 1).sending.any fun x => x.slot == 2 && x.left == 4 && x.row == 0) &&
      t.arcadeMem == s.arcadeMem &&
      (t.ring 3).spool.any fun p => p.type == 1 && p.frame == 9) = true := by decide +kernel

theorem wit_hostFetch : works (arcDev 0 [(ARC_HOST_STATUS_ready, 1)]) (.arcHostFetch (2 ^ 20 - 1)) (fun _ => true) (fun _ t =>
    t.get ARC_HOST_ADDR_line == 2 ^ 20 - 1 && t.get ARC_HOST_STATUS_ready == 0 && t.arc.fetching) = true := by decide +kernel

theorem wit_hostFetchDone : works { arcDev 0 [(ARC_HOST_ADDR_line, 2 ^ 20 - 1)] with
      arc := { fetching := true, badWords := [2 ^ 26 - 8] }, arcadeMem := [(2 ^ 26 - 64, 4#8), (2 ^ 26 - 1, 0x80#8)] } (.arcHostFetchDone [(2 ^ 26 - 64, 1)])
    (fun s => s.arc.fetching && s.wf) (fun _ t => t.get ARC_HOST_STATUS_ready == 1 && t.get ARC_HOST_STATUS_ecc_error == 1 &&
      t.reg (aARC_HOST_BUF 0) == 4#32 && t.reg (aARC_HOST_BUF 15) == 0x80000000#32 && !t.arc.fetching) = true := by decide +kernel

/-- The Arcade's scrubber in front of a line. -/
def scrubDev (k : Scrubber) : State := { arcDev 0 [(ARC_SCRUB_corrected, 65535), (ARC_SCRUB_passes, 65535)] with arc := { scrub := k } }

theorem wit_arcScrubOne : works (scrubDev { line := 2 ^ 26 - 64 }) (.arcScrub 7 1)
    (fun s => !s.portsDead && (s.badIn s.arc.scrub.next 64).isEmpty) (fun s t =>
    t.get ARC_SCRUB_corrected == 65535 && t.get ARC_SCRUB_passes == 0 && t.arcadeMem == s.arcadeMem &&
    t.arc == { s.arc with scrub := { line := 0, back := some (2 ^ 26 - 64) } }) = true := by decide +kernel

theorem wit_arcScrubAgain : works (scrubDev { line := 64, again := some (2 ^ 26 - 64) }) (.arcScrub 0 0)
    (fun s => !s.portsDead && (s.badIn s.arc.scrub.next 64).isEmpty) (fun _ t =>
    t.get ARC_SCRUB_passes == 65535 && t.arc.scrub == { line := 64 }) = true := by decide +kernel

/-- The value of an uncorrectable word is free: the hypotheses alone. -/
theorem wit_arcScrubTwo : (scrubDev {}).portsDead = false ∧ (scrubDev {}).badIn 0 64 = [] ∧ (scrubDev {}).cfg.load = none ∧
    (scrubDev {}).wf = true := by decide +kernel

/-- The same in the staging region, while a load runs. -/
theorem wit_arcScrubStaged : (let s : State := { scrubDev { line := stageBase } with
      cfg := { load := some { overlay := false, target := 0, boot := false } } }
    !s.portsDead && (s.badIn s.arc.scrub.next 64).isEmpty && s.cfg.load.any (!·.boot)) = true := by decide +kernel

theorem wit_sramOne : works (dev []) (.sramScrub { memory := 10, word := 7, errorBits := 1 }) (fun s => !s.portsDead) (fun _ t =>
    t.get SAFE_ECC_corrected == 1 && t.sweep 10 == { line := 64, back := some 0 }) = true := by decide +kernel

theorem wit_sramTwo : ([(1, 0x84), (4, 0x85), (5, 0x86), (6, 0x88), (10, 0x87)] : List (Nat × Nat)).all (fun m =>
    works { dev [] with safe := { sweeps := [(m.1, { line := 2 ^ 13 })] } } (.sramScrub { memory := m.1, word := 7, errorBits := 2 })
      (fun s => !s.portsDead) fun _ t =>
      t.get SAFE_ECC_uncorrectable == 1 && t.get SAFE_ECC_LAST_memory == m.1 && t.get SAFE_ECC_LAST_line == 2 ^ 7 &&
      bit (t.get SAFE_FAULT_STAT_fault) (if m.1 = 6 then 2 else 1) && (decide (3 < m.1) || (t.badAt m.1 (2 ^ 13 + 56) 1).isSome) &&
      t.safe.supervisorDead == decide (m.1 = 6) && (t.reg (aSAFE_LOG_LAST 0)).toNat % 256 == m.2) = true := by
  decide +kernel

/-! ### Housekeeping -/

/-- Both cores clocked, in a mode, in READY. -/
def hkDev (mode : Nat) (l : List (Fld × Nat) := []) (h : Hk := {}) : State :=
  let s := ([(PWR_STATUS_state, 3), (PWR_BLOCK_EN_hk, 1), (HKA_CTRL_en, 1), (HKA_CORE_CFG_mode 0, mode), (HKA_CORE_CFG_mode 1, mode),
    (HKA_CORE_CFG_ch 1, 31), (CLK_SYNA_OUT_CFG_en 6, 1)] ++ l).foldl (fun s x => s.putBoth x.1 x.2) (dev [])
  { s with hk := h, clk := { a := { locked := true } } }

/-- The hypotheses of a start request for core 1. -/
def mayStart (s : State) : Bool :=
  s.hkMode 1 == 1 && s.on HKA_CTRL_en && s.hkRuns && !(s.hkCore (s.hkLead 1)).want && (s.hkCore (s.hkTurn 1)).conv.isNone &&
    (s.hkCore (s.hkLead 1)).lastReq != some s.cycle

theorem wit_hkStart : [Instr.hkStart 1, .hkPinStart 1, .startAConversion 1].all (fun i =>
    works (withAsked [5] (hkDev 1 [(HKA_CORE_CFG_pin_src 1, 3)])) i
      (fun s => mayStart s && decide (s.get (HKA_CORE_CFG_pin_src 1) < 4) && !s.hk.inter && !(s.due 5).isEmpty) fun s t =>
      t.hkCore 1 == { s.hkCore 1 with lastReq := some s.cycle, want := true, pending := false }) = true := by decide +kernel

theorem wit_hkRefused : works (hkDev 0 [(HKA_CORE_COUNT_refused 1, 65535)]) (.hkStart 1) (fun s => s.hkMode 1 == 0) (fun s t =>
    t.hk == s.hk && t.get HKA_STATUS_cause == 0xC0 && t.get (HKA_CORE_COUNT_refused 1) == 65535 &&
    t.on HKA_IRQ_STAT_refused) = true := by decide +kernel

theorem wit_hkStop : works (hkDev 2 [] { b := { running := true, want := true } }) (.hkStop 1) (fun s => (s.hkCore (s.hkLead 1)).running)
    (fun s t => t.hkCore 1 == { s.hkCore 1 with running := false, want := false, late := false }) = true := by decide +kernel

theorem wit_hkConversion : works (hkDev 1 [] { b := { want := true, late := true } }) (.hkConversionStart 1)
    (fun s => s.hkFree 1 && (s.hkCore (s.hkLead 1)).want) (fun _ t =>
    (t.hkCore 1).awake && (t.hkCore 1).conv == some { ch := 31, deferred := true } && !(t.hkCore 1).want) = true := by
  decide +kernel

theorem wit_hkGrid : works (hkDev 3 [] { b := { running := true } }) (.hkPeriodicGrid 1)
    (fun s => s.hkFree 1 && (s.hkCore (s.hkLead 1)).running && s.hkMode 1 == 3 && (s.hkCore (s.hkLead 1)).forced.isNone) (fun _ t =>
    (t.hkCore 1).conv == some { ch := 31 }) = true := by decide +kernel

theorem wit_hkPowerDown : works (hkDev 1 [] { b := { awake := true } }) (.hkPowerDown 1)
    (fun s => (s.hkCore 1).conv.isNone && !(s.hkCore (s.hkLead 1)).want) (fun s t => t.hkCore 1 == { s.hkCore 1 with awake := false }) = true := by
  decide +kernel

theorem wit_interleave : works (hkDev 1 [(HKA_CTRL_interleave, 1)] { turn := 1 }) .interleaveChange
    (fun s => s.hk.inter != s.on HKA_CTRL_interleave && [s.hk.a, s.hk.b].all fun k => k.conv.isNone && !k.want && !k.pending && !k.running)
    (fun s t => t.hk == { s.hk with inter := true, turn := 0 }) = true := by decide +kernel

theorem wit_hkResult : works (hkDev 1 [(HKA_WIN_CFG_en 7, 1), (HKA_WIN_CFG_ch 7, 31), (HKA_WIN_LIMITS_hi 7, 4094), (HKA_RESULT_count 31, 65535)]
      { b := { awake := true, conv := some { ch := 31 } } }) (.hkResult 1 (2 ^ 14 - 1))
    (fun s => s.hkRuns && (s.hkCore 1).conv == some { ch := 31 } && (s.winsOn 31).contains 7 && !s.on (HKA_WIN_STAT_out 7)) (fun _ t =>
    t.get (HKA_RESULT_result 31) == 4095 && t.get (HKA_RESULT_valid 31) == 1 && t.get (HKA_RESULT_core 31) == 1 &&
    t.get (HKA_RESULT_count 31) == 0 && t.on HKA_IRQ_STAT_done1 && t.get (HKA_WIN_STAT_out 7) == 1 &&
    t.get (HKA_WIN_STAT_above 7) == 1 && t.get (HKA_WIN_STAT_exit_result 7) == 4095 && t.level 37 &&
    bit (t.get HKA_IRQ_STAT_win_exit) 7) = true := by decide +kernel

theorem wit_hkCal : works (hkDev 1 [] { b := { k := 15 } }) (.hkCalDue 1 0)
    (fun s => s.on HKA_CTRL_en && s.hkRuns && (s.hkCore 1).conv.isNone && s.hk.vadLast.isNone && s.supply.episodes.isEmpty &&
      !(s.hkCore 1).want && !(s.hkCore 1).pending && !(s.hkCore 1).running) (fun _ t =>
    (t.hkCore 1).k == 0 && !(t.hkCore 1).calDue && (t.hkCore 1).change.isSome) = true := by decide +kernel

theorem wit_hkCalForced : works (hkDev 1 [(HKA_CAL_forced, 65535)] { b := { calDue := true } }) (.hkCalForced 1 0)
    (fun s => s.on HKA_CTRL_en && s.hkRuns && (s.hkCore 1).conv.isNone && (s.hkCore 1).calDue) (fun _ t =>
    (t.hkCore 1).k == 1 && !(t.hkCore 1).calDue && t.get HKA_CAL_forced == 65535) = true := by decide +kernel

theorem wit_hkCalBusy : works (hkDev 1 [] { b := { conv := some { ch := 3 } } }) (.hkCalDue 1 0)
    (fun s => s.on HKA_CTRL_en && s.hkRuns && (s.hkCore 1).conv.isSome) (fun s t => t.hkCore 1 == { s.hkCore 1 with calDue := true }) = true := by
  decide +kernel

theorem wit_monitor : works (sectioned [{ type := 11, inst := 0, body := [1#8, 4#8, 8#8, 0#8, 100#8, 0#8, 0#8, 0#8] }]
      (hkDev 1 [(RING_DESC1_spool_kib 4, 1)] { buf := List.replicate 9 (5, 6) })) .monitorPacketAge
    (fun s => s.has 0x0B 0 && !s.hk.buf.isEmpty && decide (0 < leAt s.hkaBody 2 2) && s.monitorRoom (min (leAt s.hkaBody 2 2) 9)) (fun _ t =>
    t.hk.buf == [(5, 6)] && (t.ring 4).spool.any fun p => p.type == 6 && p.seq == 0) = true := by decide +kernel

/-! ### Pin engines -/

/-- Engine 7: shifts right, vector 3, entry 1, 4 words of code; data in from pin 8, 8 pins; 4 words of TX FIFO. -/
def pioBody7 (w : Nat) : List Byte :=
  [0x0A#8, 4#8, 1#8, 3#8, 0#8, 8#8, 8#8, 8#8, 15#8, 32#8, 4#8, 0#8, 0#8, 0#8, 0xFF#8, 0xFF#8] ++ List.replicate 0x32 0#8 ++
  [9#8, 0#8] ++ List.replicate 12 0#8 ++ leBytes 16 0 ++ leBytes 12 w

/-- Engine 7 runs at its last word, with its FIFOs and registers as given. -/
def pioDev (w : Nat) (e : PioEng) (l : List (Fld × Nat) := []) : State :=
  let s := ([(PWR_STATUS_state, 3), (PWR_BLOCK_EN_pio, 1), (CLK_SYNA_OUT_CFG_en 5, 1), (PIO_CTRL_run, 128), (PIO_ENG_PC_pc 7, 3)] ++ l).foldl
    (fun s (x : Fld × Nat) => s.putBoth x.1 x.2) (dev [])
  { sectioned [{ type := 9, inst := 7, body := pioBody7 w }] s with
    clk := { a := { locked := true } }, pio := { engs := if e = {} then [] else [(7, e)] } }

/-- An engine word from its opcode and (place, value) fields (R598). -/
def pword (op : Nat) (fs : List (Nat × Nat)) : Nat := op * 2 ^ 28 + (fs.map fun f => f.2 * 2 ^ f.1).sum

/-- The command completes the latched word of engine 7, which becomes `q`; the pc wraps from the last word to 0. -/
def pinGoes (c : Instr) (op w : Nat) (e q : PioEng) (h : State → Bool := fun _ => true) (l : List (Fld × Nat) := []) : Bool :=
  works (pioDev w { e with latched := some (w, false) } l) c
    (fun s => s.pioHas 7 op == some w && s.eng 7 == { e with latched := some (w, false) } && e.stall == 0 && decide (e.rep ≤ 1) && h s)
    fun s t => t.eng 7 == { q with latched := none, dwell := s.dwellOf 7 w } && t.get (PIO_ENG_PC_pc 7) == 0

theorem wit_pioNop : pinGoes (.pioNop 7) 0 (pword 0 [(22, 1)]) {} { dwell := 9 } = true := by decide +kernel

theorem wit_pioBr : works (pioDev 0 { latched := some (pword 1 [(8, 7), (0, 2)], false), signal := true }) (.pioBr 7)
    (fun s => (s.pioHas 7 1).isSome && s.pioCond 7 7) (fun _ t =>
    t.get (PIO_ENG_PC_pc 7) == 2 && (t.eng 7).latched.isNone && !(t.eng 7).signal) = true := by decide +kernel

theorem wit_pioBrNot : pinGoes (.pioBr 7) 1 (pword 1 [(8, 5), (0, 2)]) {} {} (fun s => !s.pioCond 7 5) = true := by decide +kernel

theorem wit_awaitMet : pinGoes (.await 7) 2 (pword 2 [(8, 2), (15, 1)]) { signal := true } {}
    (fun s => s.awaitMet 7 (pword 2 [(8, 2), (15, 1)])) = true := by decide +kernel

theorem wit_awaitStalls : works (pioDev 0 { latched := some (pword 2 [(8, 0), (15, 1), (0, 15)], false) }) (.await 7)
    (fun s => (s.pioHas 7 2).isSome && !s.awaitMet 7 (pword 2 [(8, 0), (15, 1), (0, 15)])) (fun s t =>
    t.eng 7 == { s.eng 7 with stall := 1 } && t.get (PIO_ENG_PC_pc 7) == 3) = true := by decide +kernel

theorem wit_rep : pinGoes (.rep 7) 3 (pword 3 [(0, 0)]) {} { rep := 65536 } = true := by decide +kernel

theorem wit_repValue : pinGoes (.rep 7) 3 (pword 3 [(16, 1), (0, 1)]) { v1 := 65535 } { v1 := 65535, rep := 65536 } = true := by
  decide +kernel

theorem wit_setv : pinGoes (.setv 7) 4 (pword 4 [(16, 1), (0, 65535)]) {} { v1 := 65535 } = true := by decide +kernel

theorem wit_moves : ([(2, { sr := 0xABCD, v0 := 0xABCD }), (3, { sr := 0xABCD, v1 := 0xABCD }), (4, { sr := 0xABCD }),
    (6, { sr := 0xABCD, count := 13 }), (0, { sr := 0xABCD }), (1, { sr := 0xABCD })] : List (Nat × PioEng)).all
    (fun x => pinGoes (.move 7) 5 (pword 5 [(8, x.1), (4, 3)]) { sr := 0xABCD } x.2) = true := by decide +kernel

theorem wit_movePc : works (pioDev 0 { latched := some (pword 5 [(8, 5), (4, 3)], false), sr := 66 }) (.move 7)
    (fun s => (s.pioHas 7 5).isSome && decide (s.moveValue 7 (pword 5 [(8, 5), (4, 3)]) % 64 < s.pioLen 7)) (fun _ t =>
    t.get (PIO_ENG_PC_pc 7) == 2 && t.pioOn 7) = true := by decide +kernel

theorem wit_shift : pinGoes (.shift 7) 6 (pword 6 [(0, 7)]) { sr := 0x100, count := 30 } { sr := 0x81000001, count := 32 }
    (fun s => !s.pioFlag 7 2 && s.pioFlag 7 1) [(PIO_PIN_IN_level, 0x8100)] = true := by decide +kernel

theorem wit_xchg : pinGoes (.xchg 7) 7 (pword 7 [(0, 1)]) { tx := [5, 6], sr := 8, rx := [1], count := 3 }
    { tx := [6], sr := 5, last := 5, rx := [1, 8], count := 0 }
    (fun s => decide (0 < s.pioTxDepth 7) && decide ((s.eng 7).rx.length < s.pioRxDepth 7)) = true := by decide +kernel

theorem wit_pioLoad : pinGoes (.pioLoad 7) 8 (pword 8 []) { tx := [5], sr := 8, count := 3 } { sr := 5, last := 5 } = true := by
  decide +kernel

theorem wit_store : pinGoes (.store 7) 9 (pword 9 []) { sr := 8, rx := List.replicate 11 0 } { sr := 8, rx := List.replicate 11 0 ++ [8] }
    (fun s => decide ((s.eng 7).rx.length < s.pioRxDepth 7)) = true := by decide +kernel

theorem wit_flag : works (pioDev 0 { latched := some (pword 10 [(4, 1), (0, 2)], false) }) (.flag 7) (fun s => (s.pioHas 7 10).isSome)
    (fun _ t => t.level 65 && bit (t.get PIO_IRQ_STAT_flag_irq) 7 && t.get (PIO_ENG_PC_pc 7) == 0) = true := by decide +kernel

theorem wit_addv : pinGoes (.addv 7) 11 (pword 11 [(0, 65535)]) { v0 := 3 } { v0 := 2 } = true := by decide +kernel

/-- The hypotheses of a step: the engine exists, is clocked and has nothing latched. -/
def mayStep (s : State) : Bool := s.pioExists 7 && s.pioRuns && (s.eng 7).latched.isNone

theorem wit_stepDwell : works (pioDev 0 { dwell := 1 }) (.pioStep 7 65535) (fun s => mayStep s && s.pioOn 7) (fun s t =>
    t.eng 7 == { s.eng 7 with dwell := 0 } && t.get PIO_PIN_IN_level == 65535) = true := by decide +kernel

theorem wit_stepInject : works (pioDev 0 { inject := some 7 } [(PIO_CTRL_run, 0)]) (.pioStep 7 0) (fun s => mayStep s && (s.eng 7).dwell == 0)
    (fun _ t => (t.eng 7).inject.isNone && (t.eng 7).latched == some (7, true)) = true := by decide +kernel

theorem wit_stepLatch : works (pioDev 0x40001234 {}) (.pioStep 7 0)
    (fun s => mayStep s && s.pioOn 7 && (s.eng 7).dwell == 0 && decide (s.get (PIO_ENG_PC_pc 7) < s.pioLen 7)) (fun s t =>
    (t.eng 7).latched == some (s.pioCode 7 3, false) && t.get (PIO_ENG_PC_pc 7) == 3) = true := by decide +kernel

theorem wit_stepHalts : works (pioDev 0 {} [(PIO_ENG_PC_pc 7, 4)]) (.pioStep 7 0)
    (fun s => mayStep s && s.pioOn 7 && decide (s.pioLen 7 ≤ s.get (PIO_ENG_PC_pc 7))) (fun _ t =>
    !t.pioOn 7 && t.get (PIO_ENG_STAT_cause 7) == 0xB1) = true := by decide +kernel

theorem wit_stallLoad : works (pioDev 0 { latched := some (pword 8 [(0, 1)], false), stall := 2, tx := [4, 5] }) (.stallEnd 7 0)
    (fun s => s.pioExists 7 && s.pioRuns && s.pioOn 7) (fun _ t =>
    (t.eng 7).latched.isNone && (t.eng 7).stall == 0 && (t.eng 7).tx == [5]) = true := by decide +kernel

theorem wit_stallStore : works (pioDev 0 { latched := some (pword 9 [(0, 1)], false), stall := 3, sr := 6 }) (.stallEnd 7 0)
    (fun s => s.pioExists 7 && s.pioRuns && s.pioOn 7 && decide ((s.eng 7).rx.length < s.pioRxDepth 7)) (fun _ t =>
    (t.eng 7).latched.isNone && (t.eng 7).stall == 0 && (t.eng 7).rx == [6]) = true := by decide +kernel

theorem wit_stallAwait : works (pioDev 0 { latched := some (pword 2 [(15, 1), (0, 15)], false), stall := 1 }) (.stallEnd 7 0x8000)
    (fun s => s.pioExists 7 && s.pioRuns && s.pioOn 7) (fun _ t => (t.eng 7).latched.isNone && (t.eng 7).stall == 0) = true := by
  decide +kernel

theorem wit_vectored : works (pioDev 0x40001234 { signal := true, sr := 7, count := 3 }) (.vectoredJump 7 0)
    (fun s => s.pioExists 7 && s.pioRuns && s.pioFlag 7 3 && s.pioOn 7 && decide (leAt (s.pioBody 7) 3 1 < s.pioLen 7)) (fun s t =>
    !(t.eng 7).signal && (t.eng 7).sr == 0 && (t.eng 7).count == 0 && t.get (PIO_ENG_PC_pc 7) == 3 &&
    (t.eng 7).latched == some (s.pioCode 7 3, false)) = true := by decide +kernel

theorem wit_pioRun : works (pioDev 0 {} [(PIO_CTRL_run, 0)]) (.pioRun 128) (fun s => s.pioExists 7 && !s.vddio1Low) (fun _ t => t.pioOn 7) = true := by
  decide +kernel

theorem wit_pioRestart : works (pioDev 0 { v0 := 1, v1 := 1, sr := 1, signal := true, latched := some (0, false), tx := [1], rx := [2] })
    (.pioRestart 255) (fun s => s.pioExists 7) (fun s t => t.get (PIO_ENG_PC_pc 7) == 1 && t.eng 7 == { tx := [1], rx := [2] } && t.pioOn 7 == s.pioOn 7) = true := by
  decide +kernel

theorem wit_pcWrite : works (pioDev 0 { sr := 5, v0 := 3 }) (.pioPcWrite 7 67#32) (fun s => s.pioExists 7 && decide (67 % 64 < s.pioLen 7))
    (fun _ t => t.get (PIO_ENG_PC_pc 7) == 3 && t.eng 7 == { v0 := 3, pcWrite := some (0, 3) }) = true := by decide +kernel

theorem wit_pcWriteHigh : works (pioDev 0 { sr := 5 }) (.pioPcWrite 7 4#32) (fun s => s.pioExists 7 && decide (s.pioLen 7 ≤ 4)) (fun s t =>
    t.get (PIO_ENG_STAT_cause 7) == 0xB6 && t.pio == s.pio) = true := by decide +kernel

theorem wit_inject : works (pioDev 0 {}) (.inject 7 0x40001234#32) (fun s => s.pioExists 7 && pioLegal 8 0x40001234 && (s.eng 7).inject.isNone)
    (fun _ t => t.eng 7 == { inject := some 0x40001234 }) = true := by decide +kernel

theorem wit_injectIllegal : works (pioDev 0 {}) (.inject 7 0xC0000000#32) (fun s => s.pioExists 7 && !pioLegal 8 0xC0000000) (fun s t =>
    t.get (PIO_ENG_STAT_cause 7) == 0xB0 && t.pio == s.pio) = true := by decide +kernel

theorem wit_txf : works (pioDev 0 { tx := [1, 2, 3] }) (.pioTxfWrite 7 9#32) (fun s => s.pioExists 7 && decide ((s.eng 7).tx.length < s.pioTxDepth 7))
    (fun _ t => t.eng 7 == { tx := [1, 2, 3, 9] }) = true := by decide +kernel

theorem wit_txfFull : works (pioDev 0 { tx := [1, 2, 3, 4] }) (.pioTxfWrite 7 9#32) (fun s => s.pioExists 7 && decide (s.pioTxDepth 7 ≤ (s.eng 7).tx.length))
    (fun s t => t.get (PIO_ENG_STAT_cause 7) == 0xB2 && t.pio == s.pio && t.on PIO_IRQ_STAT_fifo_error) = true := by decide +kernel

theorem wit_rxf : works (pioDev 0 { rx := [1, 2] }) (.pioRxfRead 7) (fun s => s.pioExists 7) (fun _ t => t.eng 7 == { rx := [2] }) = true := by
  decide +kernel

theorem wit_rxfEmpty : works (pioDev 0 {}) (.pioRxfRead 7) (fun s => s.pioExists 7 && (s.eng 7).rx.isEmpty) (fun s t =>
    t.get (PIO_ENG_STAT_cause 7) == 0xB3 && t.pio == s.pio) = true := by decide +kernel

theorem wit_signal : works (withAsked [25] (pioDev 0 {})) (.signalPinEngine 7) (fun s => s.pioExists 7 && !(s.due 25).isEmpty && !(s.eng 7).signal)
    (fun _ t => t.eng 7 == { signal := true }) = true := by decide +kernel

theorem wit_vddio1 : works (pioDev 0 { tx := [1], rx := [2] }) (.vddio1ResetLevel 1479) (fun s => !s.portsDead && s.supply.straps.belowReset .vddio1 1479 && s.pioExists 7) (fun _ t =>
    !t.pioOn 7 && (t.eng 7).tx.isEmpty && (t.eng 7).rx.isEmpty && (t.eng 7).parked && t.get (PIO_ENG_STAT_cause 7) == 0xB8) = true := by
  decide +kernel

/-! ### Resets, supplies, power -/

/-- Registers and parts away from reset, inside and outside what a reset keeps. -/
def busyDev (b : Boot := {}) (p : Supply := {}) : State :=
  { dev [(SYS_BOOT_REPORT_complete, 1), (PWR_STATUS_state, 3), (PWR_WAKE_scsb_en, 1), (NVM_STATUS_unlocked, 1), (CLK_STATUS_ref_present, 1)] with
    boot := b, supply := p, arcadeMem := [(5, 1#8)], tensorMem := [(7, 1#8)], sht := { frameNo := 3 } }

/-- State.restarted on the registers that either state lists. -/
def restartedB (s t : State) (src : Nat) : Bool :=
  t.boot.phase == .released && t.boot.source == src && t.get SYS_BOOT_REPORT_reset_src == src &&
    (t.regs.all fun e => [aSYS_BOOT_REPORT, aSYS_BOOT_PREV, aPWR_WAKE, aPWR_WAKE_SRC].contains e.1) &&
    t.live == [] && t.cfg == {} && t.clk == {} && t.pwr == {} && t.evf == {} && t.time == {} && t.cnt == {} && t.safe == {} &&
    t.rings == [] && t.link == {} && t.sht == {} && t.rdo == {} && t.pipe == {} && t.wins == [] && t.arc == {} && t.npc == {} &&
    t.hk == {} && t.pio == {} && t.tensorMem == [] && t.pending == s.pending &&
    t.arcadeMem == (if src = 5 then s.arcadeMem else []) && t.nvm == s.nvm

theorem wit_resets : ([(.coldReset 0, 0), (.supplyFailureReset .vddao 699, 0), (.supplyFailureReset .vdd 699, 1), (.resetbReset {}, 2),
    (.softwareReset 0xA5C3#32, 3)] : List (Instr × Nat)).all (fun x =>
    works (busyDev { phase := .done }) x.1 (fun s => !s.supply.resetbLow && !s.supply.testen && !s.supply.extest && !s.portsDead &&
      s.boot.phase != .off) fun s t => restartedB { s with nvm := t.nvm } t x.2) = true := by decide +kernel

theorem wit_testenFalls : works (busyDev { phase := .held } { testen := true }) (.testenHigh false)
    (fun s => !s.supply.resetbLow && s.supply.testen && !s.supply.extest) (fun s t => restartedB s t 2 && !t.supply.testen) = true := by
  decide +kernel

theorem wit_retryReset : works (busyDev { phase := .failed }) .bootRetry (fun s => s.boot.phase == .failed && !s.supply.resetbLow)
    (fun s t => restartedB s t 4) = true := by decide +kernel

theorem wit_extestLeft : [Instr.samplePreload [] [] { addr := true }, .testAccessPortReset { addr := true }, .bypass 2 { addr := true } []].all (fun c =>
    works (busyDev { phase := .held } { extest := true }) c (fun s => !s.supply.resetbLow && !s.supply.testen && s.supply.extest) fun s t =>
      restartedB s t 5 && !t.supply.extest && t.supply.straps == { addr := true }) = true := by decide +kernel

theorem wit_noReset : [Instr.coldReset 700, .supplyFailureReset .vddio1 0, .supplyFailureReset .vdd 700, .testenHigh false, .softwareReset 0xA5C2#32].all (fun c =>
    works (busyDev { phase := .done }) c (fun _ => true) fun s t => t == s) = true := by decide +kernel

theorem wit_held : [Instr.resetbLow, .testenHigh true, .extest].all (fun c => works (busyDev { phase := .done }) c (fun _ => true) fun _ t =>
    t.boot.phase == .held && t.portsDead && t.sht == {} && t.supply.resetbLow == decide (c = .resetbLow) &&
    t.supply.testen == decide (c = .testenHigh true) && t.supply.extest == decide (c = .extest)) = true := by decide +kernel

theorem wit_preload : works (busyDev) (.samplePreload [true] [true] {}) (fun s => !s.supply.extest) (fun s t =>
    t.supply == { s.supply with tapIr := 1, captured := boundaryCells [true], boundary := boundaryCells [true], tdo := boundaryCells [true] } && sameBut s t []) = true := by
  decide +kernel

theorem wit_tapReset : works (busyDev {} { tapIr := 3 }) (.testAccessPortReset {}) (fun s => !s.supply.extest) (fun s t =>
    t.supply.tapIr == 0x3F && sameBut s t []) = true := by decide +kernel

theorem wit_bypass : works (busyDev {} { testen := true }) (.bypass 0x1F {} [true, false, true]) (fun s => !s.supply.extest && decide (0x1F / 16 ≠ 2)) (fun s t =>
    t.supply.tapIr == 0x1F && t.supply.tdo == [false, true, false] && sameBut s t []) = true := by decide +kernel

theorem wit_private : (match exec (.bypass 0x20 {} []) (busyDev {} { testen := true }) with
    | .refused r => decide (r = .privateInstruction 0x20)
    | _ => false) = true := by decide +kernel

theorem wit_glitch : works (dev [(CNT_CFG_en 31, 1), (CNT_CFG_source 31, 102)]) (.supplyGlitch .vddio1)
    (fun s => !s.portsDead && s.on (CNT_CFG_en 31) && s.get (CNT_CFG_source 31) == 96 + (railNum .vddio1 + 7) % 8 && !s.cnt.counted.contains 31)
    (fun s t => t.counter 31 == s.counter 31 + 1) = true := by decide +kernel

theorem wit_episodeStart : works (timed (2 ^ 60) (dev [(SAFE_EPISODES_count, 65535)])) (.brownoutEpisodeStart .vddio1 1579)
    (fun s => !s.portsDead && s.supply.straps.belowWarning .vddio1 1579 && s.supply.episodes.isEmpty) (fun s t =>
    t.supply.episodes == [{ rail := 7, stamp := (s.now + 2 ^ 64 - usUnit) % 2 ^ 64, limitDone := decide (s.get SAFE_BROWNOUT_LIMIT_us = 0) }] &&
    bit (t.get SAFE_SUPPLY_warning) 7 && t.get SAFE_EPISODES_last_rail == 7 && t.get SAFE_EPISODES_count == 0 &&
    t.on SAFE_IRQ_STAT_episode && t.level 95) = true := by decide +kernel

/-- An episode on VDDIO1 since 0, at 3 us. -/
def episodeDev : State :=
  timed (3000 * 2 ^ 24) { dev [(SAFE_SUPPLY_warning, 128)] with supply := { episodes := [{ rail := 7, stamp := 0, limitDone := false }] } }

theorem wit_episodeEnd : works episodeDev (.brownoutEpisodeEnd .vddio1 1616) (fun s => s.supply.straps.recovered .vddio1 1616 && (s.supply.episodes.find? fun e => e.rail == 7).isSome)
    (fun s t => t.supply.episodes.isEmpty && t.get SAFE_EPISODE_LAST_us == s.usSince 0 && s.usSince 0 == 3 &&
      !bit (t.get SAFE_SUPPLY_warning) 7) = true := by decide +kernel

theorem wit_limit : works episodeDev (.brownoutLimitExpiry .vddio1) (fun s => s.supply.episodes.any fun e => e.rail == 7 && !e.limitDone)
    (fun _ t => bit (t.get SAFE_FAULT_STAT_fault) 0 && t.supply.episodes.all fun x => x.limitDone) = true := by decide +kernel

/-- A booted device in a power state, with a step under way or none. -/
def powered (st : Nat) (step : Option Nat := none) (l : List (Fld × Nat) := []) : State :=
  { dev ([(PWR_STATUS_state, st), (SYS_BOOT_REPORT_complete, 1), (PWR_STATUS_busy, if step.isSome then 1 else 0)] ++ l) with
    boot := { phase := .done }, pwr := { step := step }, clk := { a := { running := true, locked := true } } }

theorem wit_pwrCmd : ([(2, 0, 0x4F00, 0), (2, 4, 4, 3), (4, 2, 2, 3), (3, 4, 4, 4), (2, 1, 1, 1)] : List (Nat × Nat × Nat × Nat)).all (fun x =>
    works (powered x.1) (.pwrCmd (BitVec.ofNat 32 x.2.2.1)) (fun s => s.booted && s.pwr.step.isNone && s.power == x.1 && !s.passRuns && s.linkState == 0)
      fun s t => t.pwr.step == some x.2.2.2 && t.get PWR_STATUS_busy == 1 && t.get PWR_STATUS_target == x.2.1 && t.power == s.power) = true := by
  decide +kernel

theorem wit_pwrRefused : ([0, 5, 0x4E00] : List Nat).all (fun v => works (powered 3) (.pwrCmd (BitVec.ofNat 32 v)) (fun s => s.booted) fun s t =>
    t.get PWR_STATUS_result == 1 && t.on PWR_IRQ_STAT_refused && t.pwr == s.pwr && t.power == s.power) = true := by decide +kernel

theorem wit_powerSteps : ([(.streamToReady, 4, 3), (.readyToStandby, 3, 2), (.standbyToSleep, 2, 1), (.sleepToStandby, 1, 2),
    (.standbyToReady, 2, 3), (.readyToStream, 3, 4)] : List (Instr × Nat × Nat)).all (fun x =>
    works (powered x.2.1 (some x.2.2)) x.1 (fun s => s.stepIs x.2.1 x.2.2 && !s.sht.reading && s.sht.phase == 0 && !s.sht.accepted &&
      s.npc.runs.isEmpty && s.nvm.running.isNone && !s.passRuns && s.linkState == 0 && s.cfg.load.isNone && s.clk.a.locked)
      fun _ t => t.power == x.2.2 && (x.2.2 != 1 || t.get TIME_STATUS_synced == 0)) = true := by decide +kernel

theorem wit_streamRefused : works (powered 3 (some 4) [(LNK_STATUS_state, 5)]) .readyToStream (fun s => s.stepIs 3 4 && s.linkState == 5)
    (fun _ t => t.power == 3 && t.pwr.step.isNone && t.get PWR_STATUS_result == 2) = true := by decide +kernel

theorem wit_enterOff : works (powered 2 (some 0) [(PWR_WAKE_scsb_en, 1)]) .enterOff (fun s => s.pwr.step == some 0 && s.nvm.running.isNone)
    (fun s t => t.boot.phase == .off && t.power == 0 && t.portsDead && t.nvm == s.nvm && t.sht == {} && t.rings == [] && t.arcadeMem == [] &&
      t.tensorMem == [] && t.on PWR_WAKE_scsb_en &&
      t.regs.all fun e => [aSYS_BOOT_REPORT, aSYS_BOOT_PREV, aPWR_WAKE, aPWR_WAKE_SRC, aPWR_STATUS].contains e.1) = true := by decide +kernel

theorem wit_trigWake : works (powered 1 none [(PWR_WAKE_trig_en, 8), (PWR_WAKE_trig_falling, 8), (PWR_WAKE_SRC_count, 65535)]) (.trigWake 3 false)
    (fun s => s.power == 1 && s.pwr.step.isNone && bit (s.get PWR_WAKE_trig_en) 3 && bit (s.get PWR_WAKE_trig_falling) 3) (fun _ t =>
    t.pwr.step == some 2 && t.get PWR_WAKE_SRC_source == 4 && t.get PWR_WAKE_SRC_count == 0 && t.on PWR_IRQ_STAT_wake) = true := by
  decide +kernel

theorem wit_offWakes : ([(.scsbWake, 6), (.wakePattern, 5)] : List (Instr × Nat)).all (fun x =>
    works { dev [(PWR_WAKE_scsb_en, 1), (PWR_WAKE_bc_en, 1), (PWR_STATUS_state, 0)] with boot := { phase := .off } } x.1
      (fun s => s.boot.phase == .off && !s.supply.holds && s.on PWR_WAKE_scsb_en && s.on PWR_WAKE_bc_en) fun _ t =>
      t.boot.phase == .released && t.get SYS_BOOT_REPORT_reset_src == 6 && t.get PWR_WAKE_SRC_source == x.2 && t.on PWR_IRQ_STAT_wake) = true := by
  decide +kernel

theorem wit_blockEnable : works (powered 3) (.blockEnableWrite 0xFFFFFFFD#32) (fun _ => true) (fun s t =>
    t.get PWR_BLOCK_EN_npc == 1 && t.get PWR_BLOCK_EN_hk == 0 && t.get PWR_BLOCK_EN_pio == 1 && t.npc == s.npc) = true := by decide +kernel

theorem wit_pmDrain : works { powered 2 (some 1) with link := { low := some { low := 2, power := true } } } .pmDrainTimeout
    (fun s => s.link.low.any fun l => l.power && l.phase == 0) (fun s t =>
    t.get PWR_STATUS_result == 2 && t.pwr.step.isNone && t.link.low.isNone && t.power == s.power) = true := by decide +kernel

/-! ### Boot and NVM -/

/-- The boot stands at a phase with attempts behind it. -/
def bootDev (p : BootPhase) (n : Nat := 0) (l : List (Fld × Nat) := []) : State :=
  { dev ([(SYS_BOOT_REPORT_attempts, n)] ++ l) with boot := { phase := p } }

/-- An image without sections. -/
def bareImage : Image := { overlay := false, id := 7, version := 1, base := 0, target := 0, key := [], sections := [], carried := [] }

set_option maxRecDepth 100000 in
theorem wit_bootReads : works (bootDev .released) (.bootSequence { refKhz := 0 }) (fun s => !s.safe.supervisorDead &&
    s.identityFits && s.factoryFits && !s.on CLK_STATUS_ref_present) (fun s t => t.boot.phase == .waitReference &&
    t.reg aSYS_SERIAL_LO == s.nvmWord 0 && t.reg aSYS_SERIAL_HI == s.nvmWord 1 && t.get NVM_STATUS_key_sealed == 0) = true := by
  decide +kernel

theorem wit_bootUnreadable : works { bootDev .released 1 with nvm := { words := State.reset.nvm.words, bad := [4] } }
    (.bootSequence {}) (fun s => !s.safe.supervisorDead && !s.identityFits && decide (s.get SYS_BOOT_REPORT_attempts < 2))
    (fun _ t => t.boot.phase == .failed && t.get SYS_BOOT_REPORT_cause == 4 && t.get SYS_BOOT_REPORT_attempts == 2) = true := by
  decide +kernel

/-- SYNB has locked, and its image waits. -/
def bootEnd : State := { bootDev .waitLockB 2 with
  boot := { phase := .waitLockB, image := some bareImage }, clk := { b := { running := true, locked := true } } }

theorem wit_bootDone : bootEnd.safe.supervisorDead = false ∧ bootEnd.boot.phase = .waitLockB ∧ bootEnd.boot.image = some bareImage ∧
    bootEnd.clk.b.locked = true := by decide

theorem wit_bootDead : works { bootDev .released with safe := { supervisorDead := true } } (.bootSequence {})
    (fun s => s.safe.supervisorDead) (fun s t => t == s) = true := by decide +kernel

/-- The waits that run out, with the phase and the cause. -/
def waits : List (BootPhase × Instr × Nat) :=
  [(.waitFlash, .flashBusyTimeout, 0x07), (.waitReference, .referenceWaitTimeout, 0x01), (.waitLockBoot, .lockTimeout .a, 0x02),
    (.waitLockA, .lockTimeout .a, 0x0A), (.waitLockB, .lockTimeout .b, 0x0B), (.waitPush, .bootWatchdogExpiry, 0x0C)]

theorem wit_bootWaits : waits.all (fun x => works (bootDev x.1 1) x.2.1 (fun s => s.boot.record.isEmpty && s.boot.watchdog) fun s t =>
    t.boot.phase == .failed && t.get SYS_BOOT_REPORT_cause == x.2.2 && t.get SYS_BOOT_REPORT_attempts == 2 && t.power == s.power) = true := by
  decide +kernel

theorem wit_bootThird : (waits.all fun x => decide ((bootDev x.1 2).boot.phase = x.1) && decide (2 ≤ (bootDev x.1 2).get SYS_BOOT_REPORT_attempts) &&
    (bootDev x.1 2).boot.watchdog && (bootDev x.1 2).boot.record.isEmpty) = true := by decide +kernel

theorem wit_nvmUnlock : [(0x6A53#32, true), (0x6A52#32, false)].all (fun x => works (dev []) (.nvmUnlock x.1) (fun _ => true)
    fun _ t => t.on NVM_STATUS_unlocked == x.2) = true := by decide +kernel

theorem wit_nvmRead : [([], 0, 0xB100C93C), ([1], 0x45, 0)].all (fun x => works { dev [(NVM_ADDR_addr, 4), (NVM_STATUS_unlocked, 1)] with
    nvm := { words := [(1, 0xB100C93C#32)], bad := x.1 } } .nvmRead (fun s => !s.safe.supervisorDead && s.nvm.running.isNone) fun s t =>
      t.get NVM_RDATA_data == x.2.2 && t.get NVM_STATUS_cause == x.2.1 && !t.on NVM_STATUS_unlocked && t.on NVM_IRQ_STAT_done &&
      t.on NVM_IRQ_STAT_error == decide (x.2.1 ≠ 0) && t.nvm == s.nvm) = true := by decide +kernel

theorem wit_nvmProgram : [18 * 1024, 21 * 1024].all (fun a => works ((dev [(NVM_ADDR_addr, 4 * a), (NVM_STATUS_unlocked, 1)]).setReg aNVM_WDATA 9#32)
    .nvmProgram (fun s => !s.nvmWarning && s.nvmErased a) fun _ t => t.nvm.running == some (.program a 9#32) &&
      t.get NVM_STATUS_busy == 1 && !t.on NVM_STATUS_unlocked) = true := by decide +kernel

theorem wit_nvmErase : [18, 21].all (fun k => works (dev [(NVM_ADDR_addr, 4096 * k), (NVM_STATUS_unlocked, 1)]) .nvmEraseSector
    (fun s => !s.nvmWarning && !s.sealed) fun _ t => t.nvm.running == some (.erase k) && t.get NVM_STATUS_busy == 1) = true := by
  decide +kernel

theorem wit_storeSeeds : works { dev [(PWR_STATUS_state, 3)] with sht := { reading := true } } .storeSeeds (fun s => !s.nvmWarning &&
    decide (3 ≤ s.power)) (fun _ t => t.get NVM_STATUS_busy == 1 && t.nvm.running == some (.store 0 1 none false)) = true := by
  decide +kernel

theorem wit_nvmReserved : [0, 5, 7].all (fun op => works (dev []) (.nvmCmdReservedOp op) (fun _ => true) fun s t =>
    t.get NVM_STATUS_cause == 0x40 && t.nvm == s.nvm) = true := by decide +kernel

theorem wit_nvmDone : [NvmOp.program 7 5#32, .erase 0, .store 1 8 (some [1#8, 2#8, 3#8, 4#8, 5#8]) false].all (fun o =>
    works { dev [(NVM_STATUS_busy, 1)] with nvm := { words := [(7, 6#32), (1024, 1#32)], running := some o } } (.nvmCommandDone true)
      (fun s => s.nvm.running == some o) fun _ t => t.nvm.running.isNone && t.get NVM_STATUS_cause == 0 && t.get NVM_STATUS_busy == 0 &&
        t.nvmWord 1024 == 1#32 && (match o with
        | .program _ _ => t.nvmWord 7 == 5#32
        | .erase _ => t.nvmWord 7 == 0xFFFFFFFF#32
        | .store _ _ _ _ => t.nvmWord 10240 == 8#32 && t.nvmWord 10245 == 5#32 && t.reg aNVM_SEED_SEQ_B == 8#32)) = true := by
  decide +kernel

/-! ### Clock synthesis -/

/-- A synthesizer running on the settings of a 25 MHz reference with N 135, all its dividers 36. -/
def synPart (l : Bool) (t : Bool) (lost : Bool) : Synth :=
  { running := true, locked := l, trying := t, lost := lost, refDiv := 1, fbN := 135, refKhz := 25000, commitCycle := 0 }

/-- Both synthesizers in one condition, with the reference and lane states as in LINK, in cycle 1. -/
def clkDev (x : Synth) (l : List (Fld × Nat) := []) : State :=
  let w : List (Nat × Word) := ((List.range 8).map fun n => (aCLK_SYNA_OUT_CFG n, 36#32)) ++ [(aCLK_SYNB_OUT_CFG 0, 36#32), (aCLK_SYNB_OUT_CFG 1, 36#32)]
  let s := w.foldl (fun s (x : Nat × Word) => (s.setReg x.1 x.2).setLive x.1 x.2)
    (dev ([(CLK_STATUS_ref_present, 1), (LNK_STATUS_state, 3)] ++ l))
  { s with clk := { a := x, b := x }, cycle := 1 }

theorem wit_synLock : [Syn.a, .b].all (fun y => works (clkDev (synPart false true false)) (.synLock y) (fun s => (s.synth y).running &&
    (s.synth y).trying && !(s.synth y).locked && s.on CLK_STATUS_ref_present && !s.on (synCommit y)) fun s t =>
    t.synth y == { s.synth y with locked := true, lost := false, trying := false } && t.on (synLockBit y) && t.on (synIrq y 2) &&
    t.on CLK_STATUS_sys_src == decide (y = .a)) = true := by decide +kernel

theorem wit_lossOfLock : [(Syn.a, 3, 3), (.b, 3, 1), (.b, 5, 0), (.b, 0, 0)].all (fun x => works { clkDev (synPart true false false)
    [(CLK_STATUS_sys_src, 1), (synLockBit x.1, 1), (synLosses x.1, 255), (LNK_STATUS_state, x.2.1)] with sht := { running := true, reading := true } }
    (.lossOfLock x.1) (fun s => (s.synth x.1).locked) fun s t => t.synth x.1 == { s.synth x.1 with locked := false, lost := true, trying := false } &&
    !t.on (synLockBit x.1) && t.get (synLosses x.1) == 255 && t.on (synIrq x.1 0) && t.linkState == x.2.2 &&
    (x.1 != .a || (!t.on CLK_STATUS_sys_src && t.get TIME_INC_inc == 0x0A000000 && t.get TIME_STATUS_synced == 0 &&
      !t.sht.running && !t.sht.reading))) = true := by decide +kernel

theorem wit_refLost : works (clkDev (synPart true false false) [(CLK_REF_MEAS_ref_khz, 25000)]) .refLost (fun s => s.on CLK_STATUS_ref_present)
    (fun _ t => !t.on CLK_STATUS_ref_present && t.get CLK_REF_MEAS_ref_khz == 0 && t.on CLK_IRQ_STAT_ref_lost && !t.clk.a.locked &&
      !t.clk.b.locked) = true := by decide +kernel

theorem wit_refReturn : works (clkDev (synPart false false true) [(CLK_STATUS_ref_present, 0), (synAuto .a, 1), (synAuto .b, 0)]) .refReturn
    (fun s => s.clk.a.running && !s.clk.a.locked && s.clk.a.lost && s.on (synAuto .a)) (fun _ t =>
    t.on CLK_STATUS_ref_present && t.clk.a.trying && !t.clk.b.trying) = true := by decide +kernel

theorem wit_autoRelock : [Syn.a, .b].all (fun y => works (clkDev (synPart false false true) [(synAuto y, 1)]) (.autoRelockAttempt y)
    (fun s => (s.synth y).running && !(s.synth y).locked && (s.synth y).lost && s.on (synAuto y) && s.on CLK_STATUS_ref_present)
    fun s t => t == s.setSynth y { s.synth y with trying := true }) = true := by decide +kernel

theorem wit_refMeas : [1, 0].all (fun p => works (clkDev {} [(CLK_STATUS_ref_present, p)]) (.refMeasUpdate 24001)
    (fun s => s.boot.phase != .minimal) fun _ t => t.get CLK_REF_MEAS_ref_khz == 24001 * p) = true := by decide +kernel

theorem wit_commit : [Syn.a, .b].all (fun y => works (clkDev (synPart true false false)) (.commit y) (fun s => !s.on (synCommit y))
    fun s t => t.on (synCommit y) && t.synth y == { s.synth y with commitCycle := 1, afterBoundary := false }) = true := by decide +kernel

/-- An output whose shadow holds another divider; SYNB's dividers are not the host's to write. -/
def shadowed (y : Syn) (k d : Nat) : State :=
  (clkDev (synPart true false false) [(synCommit y, 1)]).setReg (synCfg y k) (BitVec.ofNat 32 (d + 2 ^ 16))

theorem wit_commitAccepted : [(Syn.a, 5, 34, 34), (.b, 1, 5, 36)].all (fun x => works (shadowed x.1 x.2.1 x.2.2.1) (.commitAtBeat x.1)
    (fun s => s.on (synCommit x.1) && (s.synth x.1).locked && decide ((s.synth x.1).commitCycle < s.cycle) && !s.commitHeld x.1 &&
      limitResult x.1 (s.synth x.1) (s.nextCfg x.1) == 0) fun s t => !t.on (synCommit x.1) && t.get (synResult x.1) == 0 &&
    t.on (synIrq x.1 4) && (s.nextCfg x.1)[x.2.1]? == some (t.liveReg (synCfg x.1 x.2.1)) && cfgDiv (t.liveReg (synCfg x.1 x.2.1)) == x.2.2.2) = true := by
  decide +kernel

theorem wit_commitRejected : [(Syn.a, 5, 33, 1), (.a, 2, 3, 1), (.a, 7, 67, 1), (.a, 7, 68, 0)].all (fun x =>
    works (shadowed x.1 x.2.1 x.2.2.1) (.commitAtBeat x.1) (fun s => (limitResult x.1 (s.synth x.1) (s.nextCfg x.1)) == x.2.2.2) fun s t =>
      !t.on (synCommit x.1) && t.get (synResult x.1) == x.2.2.2 &&
      (x.2.2.2 == 0 || (t.on CLK_IRQ_STAT_commit_rejected && t.live == s.live))) = true := by decide +kernel

theorem wit_relock : [(3, 0), (4, 3)].all (fun p => [Syn.a, .b].all fun y => works (clkDev (synPart true false false) [(PWR_STATUS_state, p.1)])
    (.relock y) (fun s => s.power == p.1 && (s.synth y).running) fun s t => t.get (synResult y) == p.2 &&
    t.synth y == (if p.1 = 4 then s.synth y else { s.synth y with locked := false, trying := true, lost := false }) &&
    t.on CLK_IRQ_STAT_commit_rejected == decide (p.1 = 4)) = true := by decide +kernel

theorem wit_upset : [aCLK_SYNA_OUT_CFG 7, aCLK_SYNB_OUT_DLY 1].all (fun a => works (dev [(CLK_SEU_COUNT_corrected, 65535)])
    (.singleUpsetCorrected ⟨a, true, ⟨1#32, 2#32, 2#32⟩⟩) (fun _ => (synOf a).isSome && copiesVote ⟨1#32, 2#32, 2#32⟩ == some 2#32) fun _ t => t.liveReg a == 2#32 && t.get CLK_SEU_COUNT_corrected == 65535 && t.on CLK_IRQ_STAT_seu) = true := by
  decide +kernel

theorem wit_upsetDelay : works (dev []) (.singleUpsetCorrected ⟨aEVF_FIRE_DELAY 7, false, ⟨3#32, 9#32, 3#32⟩⟩)
    (fun _ => copiesVote ⟨3#32, 9#32, 3#32⟩ == some 3#32) (fun _ t => t.get EVF_SEU_corrected == 1 && t.on EVF_IRQ_STAT_seu &&
    t.reg (aEVF_FIRE_DELAY 7) == 3#32) = true := by
  decide +kernel

theorem wit_voteFailure : [(aCLK_SYNA_OUT_CFG 7, true), (aCLK_SYNB_OUT_DLY 1, false)].all (fun x => works (dev []) (.voteFailure x.1 x.2 ⟨9#32, 1#32, 2#32⟩)
    (fun _ => (synOf x.1).isSome && (copiesVote ⟨9#32, 1#32, 2#32⟩).isNone) fun s t => (if x.2 then t.liveReg x.1 == 9#32 else t.reg x.1 == 9#32 && t.liveReg x.1 == s.liveReg x.1) &&
    t.get SAFE_SEU_vote_fail == 1 && bit (t.get SAFE_FAULT_STAT_fault) 5) = true := by decide +kernel

/-! ### Images -/

/-- The bytes of a section body, zeros to its length. -/
def body (b : List Byte) (n : Nat) : List Byte := b ++ List.replicate (n - b.length) 0#8

/-- The plan of both synthesizers for a 25 MHz reference: N 128 by 1, and 625 by 4. -/
def synthBody : List Byte :=
  let o (d e : Nat) := leBytes 4 (d + 2 ^ 16 * e)
  [0#8, 1#8] ++ leBytes 2 128 ++ leBytes 4 25000 ++ [16#8, 8#8, 0#8, 0#8] ++ o 32 1 ++ o 25 1 ++ o 32 0 ++ o 8 1 ++ o 32 1 ++ o 100 0 ++
    o 200 1 ++ o 100 0 ++ [1#8, 4#8] ++ leBytes 2 625 ++ leBytes 4 25000 ++ [0#8, 2#8, 0#8, 0#8] ++ o 5 1 ++ o 8 1

/-- The smallest structure: the plan, the timing, no window, rings 0 and 1, two lanes. -/
def smallest : List Section :=
  [{ type := 1, inst := 0, body := synthBody },
   { type := 2, inst := 0, body := body ([0#8, 1#8] ++ leBytes 2 256 ++ leBytes 4 25000000 ++ [0#8, 0#8, 1#8, 0#8] ++ leBytes 4 0 ++ leBytes 4 2000000) 32 },
   { type := 3, inst := 0, body := body [] 1024 },
   { type := 4, inst := 0, body := body (body [3#8, 7#8, 0#8, 0#8, 128#8, 0#8, 4#8] 64 ++ [3#8, 7#8, 1#8, 0#8, 64#8, 0#8, 5#8]) 4096 },
   { type := 5, inst := 0, body := body [2#8] 8 }]

/-- A signed overlay of 256 bytes for base 7 that carries a TIMING section with another minimum frame period. The signature is that
of a key made for it: both of its numbers are the hash of the signed part. -/
def overlayBytes : List Byte := leBytes 256
  0x847c92b1f02c3d3a0c23d73633b94b0e61dab10a5447b56d7476dff3f6434f5c847c92b1f02c3d3a0c23d73633b94b0e61dab10a5447b56d7476dff3f6434f5c885b24a0d6a28d06f732831e73cca5874268159334466a7c113c984c00bcb360330f618c11027f2c2a813b94cad804dd362e789f3845ba36170f80d2675ef9d6000000000000000000000000001e8480000000000001000001c9c380010001006db52f040000008000000080000000ff78ab4104000000200000006000000002b33a6bcc000000000000000000000000000000000000000000000003000000070000000100000202ffff0000ffff000000000040000001000002000132495350

/-- The overlay staged on the smallest structure, under its key, with its checks running. -/
def overlaid (h : Shutter) (target : Nat := 0) : State :=
  let s := sectioned smallest (dev [(CFG_STATUS_structure, 1), (CFG_ACTIVE_ID_id, 7), (CLK_REF_MEAS_ref_khz, 25000), (CFG_LOAD_STATUS_busy, 1)])
  { s with
    sht := h
    cfg := { s.cfg with
      load := some { overlay := true, target := target, boot := false }, staged := 256, key := (overlayBytes.drop 128).take 64 }
    arcadeMem := ((List.range 256).zip overlayBytes).filterMap fun x => if x.2 = 0#8 then none else some (0x3C00000 + x.1, x.2) }

/-- An image that some check refuses first by its magic. -/
def loading (l : Load) (st : List (Fld × Nat) := []) : State :=
  let s := dev ([(CFG_LOAD_STATUS_busy, 1)] ++ st)
  { s with cfg := { s.cfg with load := some l, staged := 64 } }

theorem wit_stageData : [0, 0xFFFFF].all (fun k => works (dev [(CFG_STAGE_ADDR_addr, k)]) (.stageData 0x04030201#32) (fun s => s.cfg.load.isNone &&
    !s.overlayPending && decide (4 * s.get CFG_STAGE_ADDR_addr < 0x400000)) fun _ t => t.get CFG_STAGE_ADDR_addr == k + 1 &&
    (List.range 6).map (fun j => cellGet t.arcadeMem (0x3C00000 + 4 * k + j - 1)) == [0#8, 1#8, 2#8, 3#8, 4#8, 0#8]) = true := by
  decide +kernel

theorem wit_stageRefused : [loading { overlay := false, target := 0, boot := false }, dev [(CFG_STAGE_ADDR_addr, 0x100000)]].all (fun s =>
    works s (.stageData 1#32) (fun s => s.cfg.load.isSome || decide (0x400000 ≤ 4 * s.get CFG_STAGE_ADDR_addr)) fun s t =>
      t.arcadeMem == s.arcadeMem && t.get CFG_STATUS_refusal == 0x3D && t.on CFG_IRQ_STAT_refused) = true := by decide +kernel

theorem wit_startFull : [BootPhase.done, .minimal, .waitPush].all (fun p => works { dev [(CFG_OVL_FRAME_target, 9)] with boot := { phase := p, watchdog := false } }
    .startFull (fun s => s.cfg.load.isNone && s.cfg.waiting.isNone) fun _ t => t.get CFG_LOAD_STATUS_busy == 1 &&
      t.cfg.load == some { overlay := false, target := 9, boot := decide (p = .waitPush) } && t.boot.watchdog == decide (p = .waitPush)) = true := by
  decide +kernel

theorem wit_startOverlay : works { dev [(CFG_OVL_FRAME_target, 9), (CFG_STATUS_structure, 1)] with boot := { phase := .done } } .startOverlay
    (fun s => s.cfg.load.isNone && s.cfg.waiting.isNone) (fun _ t => t.get CFG_LOAD_STATUS_busy == 1 &&
      t.cfg.load == some { overlay := true, target := 9, boot := false }) = true := by decide +kernel

theorem wit_startRefused : [Instr.startFull, .startOverlay].all (fun c => works (loading { overlay := false, target := 0, boot := false }) c
    (fun s => s.cfg.load.isSome) fun s t => t.cfg == s.cfg && t.get CFG_STATUS_refusal == 0x3B && t.on CFG_IRQ_STAT_refused) = true := by
  decide +kernel

theorem wit_abort : works (loading { overlay := true, target := 0, boot := false }) .abort (fun _ => true) (fun s t => t.cfg.load.isNone &&
    t.get CFG_LOAD_STATUS_busy == 0 && t.get CFG_LOAD_STATUS_cause == 0x3C && t.on CFG_IRQ_STAT_rejected &&
    t.cfg.sections == s.cfg.sections) = true := by decide +kernel

theorem wit_rejected : works (loading { overlay := false, target := 0, boot := false }) (.loadChecksComplete [] false)
    (fun s => s.check { overlay := false, target := 0, boot := false } == .reject 0x20 0x3F 0) (fun s t => t.cfg.load.isNone &&
    t.get CFG_LOAD_STATUS_busy == 0 && t.get CFG_LOAD_STATUS_cause == 0x20 && t.on CFG_IRQ_STAT_rejected &&
    t.cfg.sections == s.cfg.sections) = true := by decide +kernel

/-- The checks accept, with what else the statements ask. -/
def accepted (s : State) (p : Image → Bool) : Bool :=
  match s.cfg.load with
  | some l => (match s.check l with
    | .accept i => p i && !l.boot && (l.target == 0 || !s.targetPassed l.target)
    | .reject _ _ _ => false)
  | none => false

set_option maxRecDepth 100000 in
theorem wit_acceptedWaits : works (overlaid { reading := true }) (.loadChecksComplete [] true) (fun s => accepted s s.imageWaits) (fun s t =>
    t.cfg.load.isNone && t.cfg.waiting.isSome && t.get CFG_LOAD_STATUS_busy == 0 && t.get CFG_LOAD_STATUS_cause == 0 &&
    t.on CFG_IRQ_STAT_accepted && t.on CFG_STATUS_overlay_pending && t.cfg.sections == s.cfg.sections) = true := by decide +kernel

set_option maxRecDepth 100000 in
theorem wit_inForce : accepted (overlaid {}) (fun i => !(overlaid {}).imageWaits i && i.carried == [(2, 0)] && i.id == 1 &&
    i.sections.map (fun x => leAt x.body 4 4) == [30000000, 25000, 0, 0x40080, 0]) = true := by decide +kernel

/-! ### Olaok Link -/

/-- A packet of ring `n` with a payload of one word. -/
def pkt (n q : Nat) : Packet := { ring := n, type := 6, pflags := 0, seq := q, tag := 0, frame := 0, index := 0, payload := leBytes 4 q }

/-- The link in a state on two lanes of four, with the back-channel aligned, two units held and one packet waiting on ring 2. -/
def linkDev (st : Nat) (l : LinkSt := {}) (r : List (Nat × RingSt) := [(2, { spool := [pkt 2 9] })]) (more : List (Fld × Nat) := []) : State :=
  { dev ([(LNK_STATUS_state, st), (LNK_STATUS_lanes, 3), (LNK_CTRL_lane_en, 15), (LNK_STATUS_bc_aligned, 1), (LNK_LSN_next, 1),
      (RING_SEQ_unacked 2, 2), (PWR_STATUS_state, 3)] ++ more) with
    link := { l with held := [(65535, pkt 2 7), (0, pkt 2 8)] }, rings := r, clk := { b := { running := true, locked := true } } }

/-- State.manages. -/
def managesB (s t : State) (payload : List Byte) : Bool :=
  match (t.ring 0).spool.getLast? with
  | some p => (t.ring 0).spool == (s.ring 0).spool ++ [p] && p.ring == 0 && p.type == 9 && p.payload == payload
  | none => false

theorem wit_ack : [(65535, [(0, pkt 2 8)]), (0, []), (65534, [(65535, pkt 2 7), (0, pkt 2 8)])].all (fun x => works (linkDev 3) (.ack x.1 (interjectionCrc x.1))
    (fun s => s.on LNK_STATUS_bc_aligned && s.link.reneg.isNone && s.link.low.isNone) fun _ t =>
      t.link.held == x.2 && t.get LNK_REPLAY_FILL_bytes == 24 * x.2.length) = true := by decide +kernel

theorem wit_ackOutside : [Instr.ack 1 (interjectionCrc 1), .nak 1 (interjectionCrc 1), .nak 65534 (interjectionCrc 65534)].all (fun c => works (linkDev 3) c (fun s => s.on LNK_STATUS_bc_aligned) fun s t =>
    t.link == s.link && t.get LNK_STATUS_cause == 0x56) = true := by decide +kernel

theorem wit_nak : [(65535, [(65535, pkt 2 7), (0, pkt 2 8)]), (0, [(0, pkt 2 8)])].all (fun x => works (linkDev 3) (.nak x.1 (interjectionCrc x.1))
    (fun s => s.on LNK_STATUS_bc_aligned && s.link.reneg.isNone && s.link.low.isNone && s.link.sched.isNone) fun _ t =>
      t.link.held == x.2 && t.link.sched == some x.1) = true := by decide +kernel

theorem wit_nakCovered : works (linkDev 3 { sched := some 65535 }) (.nak 0 0) (fun s => s.schedCovers 0 && interjectionCrc 0 == 0) (fun s t =>
    t.link == s.link) = true := by decide +kernel

theorem wit_badCrc : [Instr.ack 0 1, .nak 0 1, .interjectionDiscarded 0 1 false, .interjectionDiscarded 0 0 true].all (fun c => works (linkDev 3) c
    (fun s => s.on LNK_STATUS_bc_aligned) fun s t => t.link == s.link && t.get LNK_COUNTS_bc_discarded == 1) = true := by decide +kernel

theorem wit_unaligned : [Instr.ack 0 0, .nak 0 1, .interjectionDiscarded 0 0 true].all (fun c => works (linkDev 3 {} [] [(LNK_STATUS_bc_aligned, 0)]) c
    (fun s => !s.on LNK_STATUS_bc_aligned) fun s t => t == s) = true := by decide +kernel

theorem wit_replayTimeout : works (linkDev 3) .replayTimeout (fun s => s.link.sched.isNone && !s.link.held.isEmpty) (fun s t =>
    t == { s with link := { s.link with sched := some 65535 } }) = true := by decide +kernel

/-- Thirty-two symbols without an error, the last four K28.5. -/
def aligning : List BcSymbol := List.replicate 28 ⟨false, false⟩ ++ List.replicate 4 ⟨false, true⟩

theorem wit_alignment : works (linkDev 1 {} [] [(LNK_STATUS_bc_aligned, 0)]) (.bcAlignment aligning)
    (fun s => s.clk.b.locked && !s.on LNK_STATUS_bc_aligned && s.link.symbols.isEmpty && aligning.length == 32) (fun _ t =>
    t.on LNK_STATUS_bc_aligned && t.link.symbols.isEmpty) = true := by decide +kernel

theorem wit_notAligned : works (linkDev 1 {} [] [(LNK_STATUS_bc_aligned, 0)]) (.bcAlignment (⟨true, true⟩ :: aligning.drop 1))
    (fun s => s.clk.b.locked && !s.on LNK_STATUS_bc_aligned) (fun _ t =>
    !t.on LNK_STATUS_bc_aligned && t.link.symbols.length == 32) = true := by decide +kernel

theorem wit_alignmentLost : works (linkDev 1) (.bcAlignment (List.replicate 4 ⟨true, false⟩)) (fun s => s.clk.b.locked && s.on LNK_STATUS_bc_aligned)
    (fun _ t => !t.on LNK_STATUS_bc_aligned && t.link.symbols.isEmpty) = true := by decide +kernel

theorem wit_silence : works (linkDev 3) .bcSilenceTimeout (fun _ => true) (fun s t => t.linkState == 1 && t.get LNK_STATUS_cause == 0x59 &&
    t.on LNK_IRQ_STAT_down && t.link.held == s.link.held) = true := by decide +kernel

theorem wit_discarded : works (linkDev 3) (.bcMessageDiscarded [9#8] true) (fun _ => true) (fun _ t => t.get LNK_STATUS_cause == 0x50 &&
    t.on LNK_IRQ_STAT_bc_error && t.get LNK_COUNTS_bc_discarded == 1) = true := by decide +kernel

theorem wit_caps : works (linkDev 1 {} [] [(LNK_CTRL_max_version, 2), (LNK_CTRL_max_rate, 3)]) (.caps ([2#8, 12#8, 1#8] ++ List.replicate 5 0#8))
    (fun s => !s.on LNK_CTRL_pin_rate && !s.safe.supervisorDead) (fun _ t => t.linkState == 2 && t.get LNK_STATUS_version == 2 &&
    t.get LNK_LANE_STATUS_chosen == 12 && t.link.target == 1) = true := by decide +kernel

theorem wit_capsPinned : works (linkDev 1 {} [] [(LNK_CTRL_max_version, 2), (LNK_CTRL_max_rate, 2), (LNK_CTRL_pin_rate, 1)])
    (.caps ([2#8, 12#8, 1#8] ++ List.replicate 5 0#8)) (fun s => s.on LNK_CTRL_pin_rate && !s.safe.supervisorDead) (fun _ t => t.linkState == 1 &&
    t.get LNK_STATUS_cause == 0x53) = true := by decide +kernel

theorem wit_capsElsewhere : works (linkDev 3) (.caps ([2#8, 12#8, 1#8] ++ List.replicate 5 0#8)) (fun _ => true) (fun s t =>
    t.link == s.link && t.get LNK_STATUS_cause == 0x52) = true := by decide +kernel

/-- A step up to rate code 1 in some phase. -/
def stepAt (p : StepPhase) : RateStep := { rate := 1, old := 0, down := false, phase := p, seq := 5 }

theorem wit_stepResult : [(1#8, .passed), (0#8, .failed)].all (fun x => works (linkDev 4 { step := some (stepAt .checking) })
    (.stepResult [x.1, 1#8, 0#8, 0#8]) (fun _ => true) fun s t => t.link.step == some (stepAt x.2) && t.regs == s.regs) = true := by
  decide +kernel

theorem wit_pmWake : works (linkDev 5 {} [] [(LNK_STATUS_low, 1)]) (.pm [0#8, 0#8, 0#8, 0#8]) (fun _ => true) (fun s t => t.linkState == 3 &&
    t.get LNK_STATUS_low == 0 && t.link.quiet == 2 && managesB s t (wordBytes [6, 0])) = true := by decide +kernel

theorem wit_pmLow : [1#8, 2#8].all (fun b => works (linkDev 3 {} [] [(LNK_STATUS_version, 2)]) (.pm [b, 0#8, 0#8, 0#8])
    (fun s => s.link.step.isNone && s.link.low.isNone && s.link.reneg.isNone && s.power == 3) fun _ t =>
      t.link.low == some { low := b.toNat } && t.linkState == 3) = true := by decide +kernel

theorem wit_pmFromLow : works (linkDev 5 {} [] [(LNK_STATUS_version, 2), (LNK_STATUS_low, 2)]) (.pm [1#8, 0#8, 0#8, 0#8])
    (fun s => s.link.reneg.isNone && s.power == 3) (fun _ t => t.linkState == 3 && t.link.low.isSome) = true := by decide +kernel

theorem wit_pmRefused : works (linkDev 1 {} [] [(LNK_STATUS_version, 1)]) (.pm [2#8, 0#8, 0#8, 0#8]) (fun _ => true) (fun s t =>
    t.get LNK_STATUS_cause == 0x57 && t.linkState == 1 && t.link == s.link) = true := by decide +kernel

theorem wit_laneReport : works (linkDev 3) (.laneReport [2#8, 0#8, 0#8, 0#8]) (fun s => bit s.laneMap 0) (fun _ t =>
    t.link.losses.map (·.1) == [0] && t.laneMap == 3) = true := by decide +kernel

theorem wit_lanesGone : works (linkDev 3) (.laneReport [12#8, 0#8, 0#8, 0#8]) (fun s => s.laneMap != 0 && s.link.losses.isEmpty) (fun _ t =>
    t.linkState == 1 && t.get LNK_STATUS_cause == 0x5E) = true := by decide +kernel

theorem wit_echo : works { linkDev 3 with time := { base := 2 ^ 40 } } (.echo [1#8, 2#8, 3#8, 4#8] 512) (fun _ => true) (fun s t =>
    t.get64 aTIME_RX_LO aTIME_RX_HI == 2 ^ 32 - 32768000 && managesB s t (wordBytes [4, 0x04030201, 2 ^ 32 - 32768000, 0, 0, 0])) = true := by
  decide +kernel

theorem wit_linkEnable : works (linkDev 0) (.linkEnableWrite true) (fun s => s.clk.b.locked) (fun _ t => t.linkState == 1 && t.laneMap == 15 &&
    t.on LNK_CTRL_en) = true := by decide +kernel

theorem wit_linkDisable : [0, 1, 3, 5].all (fun k => works (linkDev k) (.linkEnableWrite false) (fun _ => true) fun _ t =>
    !t.on LNK_CTRL_en && t.linkState == 0) = true := by decide +kernel

theorem wit_renegotiate : works (linkDev 3 {} [] [(RING_SEQ_next 0, 77), (LNK_CTRL_max_rate, 2)]) .renegotiate (fun s => s.link.reneg.isNone) (fun s t =>
    t.link == { s.link with reneg := some 77 } && managesB s t (wordBytes [9, 15 + 2 ^ 8 * 2])) = true := by decide +kernel

theorem wit_stepWaits : [(StepPhase.draining, Instr.stepDrained, StepPhase.drained), (.draining, .stepDrainTimeout, .failed),
    (.checking, .stepResultTimeout, .failed)].all (fun x => let s : State := { linkDev 3 with link := { step := some (stepAt x.1) } }
    works s x.2.1 (fun s => s.link.held.isEmpty) fun s t => t == { s with link := { s.link with step := some (stepAt x.2.2) } }) = true := by
  decide +kernel

theorem wit_wakeOnData : works (linkDev 5 {} [(1, { spool := [pkt 1 3] })] [(LNK_STATUS_low, 1), (LNK_CTRL_wake_on_data, 1)]) .wakeOnData (fun s =>
    !(s.ring 1).spool.isEmpty) (fun _ t => t.linkState == 3 && t.get LNK_STATUS_low == 0 && t.link.quiet == 2) = true := by decide +kernel

theorem wit_wakePattern : works (linkDev 5 {} [] [(LNK_STATUS_low, 1)]) .wakePattern (fun s => s.boot.phase != .off && !s.sleepish) (fun _ t =>
    t.linkState == 3 && t.get LNK_STATUS_low == 0 && t.link.quiet == 2) = true := by decide +kernel

theorem wit_delayLine : works { linkDev 3 with cycle := 8 } (.txDelayLineLoss 1) (fun s => bit s.laneMap 1 && s.link.losses.isEmpty) (fun _ t =>
    t.link.losses == [(1, 8, 0x5B)] && t.get LNK_STATUS_cause == 0x5B && t.on LNK_IRQ_STAT_lane_lost && t.get LNK_LANE_COUNTS_losses == 1) = true := by
  decide +kernel

theorem wit_lastLane : works (linkDev 3 { losses := [(0, 0, 0x5B)] }) (.txDelayLineLoss 1) (fun s => bit s.laneMap 1) (fun s t =>
    t.linkState == 1 && t.get LNK_STATUS_cause == 0x5E && t.on LNK_IRQ_STAT_down && t.link.held == s.link.held) = true := by decide +kernel

theorem wit_probeStart : works (linkDev 3 {} [] [(LNK_LANE_STATUS_lost, 128)]) (.probeStart 7) (fun s => s.link.probes.isEmpty &&
    !bit (s.get LNK_LANE_CTRL_no_readmit) 7) (fun s t => t == { s with link := { s.link with probes := [{ lane := 7 }] } }) = true := by decide +kernel

theorem wit_probeEnd : works (linkDev 3 { probes := [{ lane := 7, left := 0, begun := true }, { lane := 6 }] }) (.probeEnd 7) (fun _ => true) (fun _ t =>
    t.link.probes == [{ lane := 6 }] && t.get LNK_STATUS_cause == 0x5D) = true := by decide +kernel

theorem wit_restore : [0, 1].all (fun role => works (linkDev 3 {} [] [(RING_CLASS_demoted 2, 1), (RING_CLASS_shares 2, 3), (LNK_STATUS_lanes, 15),
    (RING_DESC1_role 2, role)]) .restore (fun s => ((List.range 256).all fun m => m == 2 || !s.on (RING_CLASS_demoted m)) && decide (4 ≤ s.linkCapacity) &&
      s.hasFrames 2 == decide (role = 0)) fun _ t => t.on (RING_CLASS_in_force 2) == decide (role = 1) && t.on (RING_CLASS_demoted 2) == decide (role = 0) &&
      (t.ring 2).restore == decide (role = 0)) = true := by decide +kernel

/-- The link in the middle of an interval. -/
def streaming (l : LinkSt) : State := linkDev 3 { l with stream := [.sync 1] }

/-- The hypotheses on a unit to be handed over. -/
def mayHand (s : State) : Bool :=
  s.ports.resetAsked.isNone && s.linkState == 3 && s.clk.b.locked && !s.link.stream.isEmpty && decide (s.link.pos < s.intervalBytes) &&
    s.link.quiet == 0 && s.link.sched.isNone && s.link.losses.isEmpty

theorem wit_ringZeroFirst : { linkDev 3 {} [(0, { spool := [pkt 0 4] }), (2, { spool := [pkt 2 9] })] with clk := {} } |> (fun s =>
    decide (0 ≤ s.bucket 0) && s.offers 0 && s.roundabout == some 0) := by decide +kernel

theorem wit_resend : works (streaming { resend := some 65535 }) (.unitHandedToStriper 0) mayHand (fun s t =>
    t.link.stream == s.link.stream ++ [.packet 65535 (pkt 2 7)] && t.link.held == s.link.held && t.link.resend == some 0) = true := by
  decide +kernel

theorem wit_newUnit : works (streaming {}) (.unitHandedToStriper 0) (fun s => mayHand s && s.roundabout == some 2 && !(s.ring 2).removing) (fun s t =>
    t.link.stream == s.link.stream ++ [.packet 1 (pkt 2 9)] && t.link.held == s.link.held ++ [(1, pkt 2 9)] && t.get LNK_LSN_next == 2 &&
    (t.ring 2).spool.isEmpty) = true := by decide +kernel

theorem wit_noticeUnit : works (streaming { notices := [{ lost := 2, cause := 0x5A, marker := 7, map := 1, capacity := 9 }] }) (.unitHandedToStriper 0)
    (fun s => mayHand s && s.link.resend.isNone && decide (s.link.fill + 36 ≤ 131072)) (fun _ t => t.link.notices.isEmpty &&
    (match t.link.stream.getLast? with
      | some (.packet 1 p) => p.type == 9 && p.payload == wordBytes [7, 2 + 2 ^ 16 + 2 ^ 24 * 0x5A, 9, 7]
      | _ => false)) = true := by decide +kernel

theorem wit_unitWaits : [{ streaming {} with link := { (streaming {}).link with losses := [(1, 0, 0x5A)] } },
    streaming { sched := some 0 }, streaming { quiet := 1 }].all (fun s => works s (.unitHandedToStriper 0)
    (fun s => s.linkState == 3 && s.clk.b.locked && decide (s.link.pos < s.intervalBytes)) fun s t =>
      t == { s with link := { s.link with stream := s.link.stream ++ [.idle] } }) = true := by decide +kernel

theorem wit_idle : works { streaming {} with rings := [] } (.unitHandedToStriper 0) (fun s => mayHand s && s.roundabout.isNone) (fun s t =>
    t == { s with link := { s.link with stream := s.link.stream ++ [.idle] } }) = true := by decide +kernel

theorem wit_markerDetect : works (linkDev 1 { nextMarker := 65535 }) .marker (fun s => s.link.resend.isNone && s.clk.b.locked) (fun _ t =>
    t.linkState == 1 && t.link.stream == [.sync 0] && t.get LNK_MARKER_counter == 65535 && t.laneMap == 15) = true := by decide +kernel

theorem wit_markerConfig : works (linkDev 2 {} [] [(LNK_LANE_STATUS_chosen, 12)]) .marker (fun s => s.link.losses.isEmpty && s.link.quiet == 0 &&
    s.link.low.isNone) (fun _ t => t.linkState == 3 && t.laneMap == 12 && t.link.restripe && t.link.stream == [.sync 0] && t.on LNK_IRQ_STAT_up) = true := by decide +kernel

theorem wit_markerActive : works (streaming { nextMarker := 7 }) .marker (fun s => s.link.losses.isEmpty && s.link.probes.isEmpty &&
    s.link.step.isNone && s.link.sched.isNone) (fun _ t => t.linkState == 3 && t.laneMap == 3 && t.link.stream == [.sync 1] &&
    t.get LNK_MARKER_counter == 7 && t.link.nextMarker == 8) = true := by decide +kernel

theorem wit_markerReplay : works (streaming { sched := some 65535, lastReplay := some 0 }) .marker (fun s => s.link.losses.isEmpty &&
    s.link.quiet == 0 && s.link.lastReplay != some 65535) (fun _ t => t.linkState == 3 && t.link.stream == [.rsync 65535] &&
    t.link.resend == some 65535 && t.link.sched.isNone && t.get LNK_COUNTS_replays == 1) = true := by decide +kernel

/-! ### Control ports -/

/-- The device up, with owners of blocks. -/
def portDev (l : List (Fld × Nat) := []) : State := dev ([(SYS_BOOT_REPORT_complete, 1), (PWR_STATUS_state, 3)] ++ l)

/-- The serializer is free for a port's write. -/
def free (s : State) (p : Port) : Bool :=
  s.ports.writes.isEmpty && s.ports.taken.isEmpty && s.ports.held.isEmpty && s.ports.waiting.isEmpty && !s.higherComes p

/-- A header of one word (R196). -/
def hdr (op a : Nat) : Nat := 2 ^ 28 * op + a / 4

theorem wit_written : ((regRow aNVM_IRQ_STAT).map fun r => [(3, 3, 0, 0), (3, 1, 0, 2), (3, 3, 1, 1), (0, 3, 0, 0)].all fun x =>
    r.written x.1 x.2.1 x.2.2.1 == x.2.2.2) = some true := by decide +kernel

theorem wit_plainWrites : [(aSYS_IRQ_EN, 5#32), (aPWR_WAKE, 1#32), (aCFG_OVL_FRAME, 7#32), (aNVM_ADDR, 0x40#32), (aNVM_WDATA, 9#32), (aTIME_PATH_DELAY, 3#32)].all (fun x =>
    [Port.spi, .i2c, .backChannel].all fun p => works (portDev [(ownerField 4, p.num)]) (.registerWrite p x.1 x.2) (fun s => !s.portsDead &&
      free s p && !s.minimal && (match portBlock x.1 with | some b => !s.lockedTo p b | none => true)) fun s t => t.reg x.1 == x.2 &&
      sameBut s t [x.1]) = true := by decide +kernel

theorem wit_refusals : ([(portDev, 0x060000, 0xA3, 31, 0), (portDev [(ownerField 4, 1)], 0x04000C, 0xA2, 4, 3), (dev [(ownerField 0, 1)], 0x100004, 0xA4, 6, 1),
    (portDev [(CFG_STATUS_structure, 3)], 0x20FFFC, 0xA5, 11, 0x3FFF)] : List (State × Nat × Nat × Nat × Nat)).all (fun x =>
    works x.1 (.registerWrite .spi x.2.1 1#32) (fun s => !s.portsDead && free s .spi) fun s t =>
      (t.reg aCTL_LAST_REJECT).toNat == x.2.2.1 + 2 ^ 8 * Port.num .spi + 2 ^ 10 * x.2.2.2.1 + 2 ^ 16 * x.2.2.2.2 &&
      sameBut s t [aCTL_LAST_REJECT, aCTL_IRQ_STAT] && t.on (if x.2.2.1 = 0xA2 then CTL_IRQ_STAT_lock_reject else CTL_IRQ_STAT_other_reject)) = true := by
  decide +kernel

theorem wit_locks : works (portDev [(ownerField 20, 2)]) (.ctlLockTake .spi 0x110001#32) (fun s => !s.portsDead && free s .spi && !s.lockedTo .spi 20 && !s.lockedTo .spi 0) (fun _ t =>
    (List.range 21).all fun b => t.owner b == if b = 0 ∨ b = 16 ∨ b = 20 then 2 else 0) = true := by decide +kernel

theorem wit_frees : works (portDev [(ownerField 20, 2), (ownerField 3, 1)]) (.ctlLockFree .spi 0x100001#32) (fun s => !s.portsDead && free s .spi) (fun _ t =>
    (List.range 21).all fun b => t.owner b == if b = 3 then 1 else 0) = true := by decide +kernel

theorem wit_lockRefused : [Instr.ctlLockTake .spi 0x100001#32, .ctlLockFree .spi 0x100001#32].all (fun c => works (portDev [(ownerField 20, 1)]) c
    (fun s => !s.portsDead && free s .spi && s.lockedTo .spi 20) fun s t => bits (t.reg aCTL_LAST_REJECT).toNat 0 8 == 0xA9 && t.on CTL_IRQ_STAT_lock_reject &&
      (List.range 21).all fun b => t.owner b == s.owner b) = true := by decide +kernel

theorem wit_lockBreak : works (portDev [(ownerField 20, 2), (ownerField 3, 1)]) (.ctlLockBreak .i2c 0xB4EA#32) (fun s => !s.portsDead && free s .i2c && decide (s.safe.log.length < 511)) (fun _ t =>
    t.on CTL_IRQ_STAT_lock_broken && ((List.range 21).all fun b => t.owner b == 0) && t.reg (aSAFE_LOG_LAST 0) == 0x50400#32 &&
    t.reg (aSAFE_LOG_LAST 1) == 3#32 && t.reg (aSAFE_LOG_LAST 2) == 0x100008#32) = true := by decide +kernel

theorem wit_lockKept : works (portDev [(ownerField 20, 2)]) (.ctlLockBreak .i2c 0xB4EB#32) (fun s => !s.portsDead && free s .i2c) (fun s t => sameBut s t [] && t.owner 20 == 2) = true := by
  decide +kernel

theorem wit_retrigger : works (portDev [(CTL_PORT_CFG_irq_retrigger, 1), (NVM_IRQ_STAT_done, 1), (⟨aNVM_IRQ_EN, 0, 1⟩, 1), (⟨aSYS_IRQ_EN, 0, 32⟩, 0xFFFFFFFF)]) .irqbRetrigger
    (fun s => !s.portsDead && land s.irqSummary (s.reg aSYS_IRQ_EN).toNat != 0 && s.irqbLow) (fun s t => !t.irqbLow && sameBut s t []) = true := by decide +kernel

theorem wit_nop : works (portDev) (.cmdNop (.spi (frameOf (hdr 0 0) []))) (fun s => s.listens .spi && free s .spi) (fun s t => sameBut s t [] &&
    t.ports.spi == { s.ports.spi with response := beBytes 4 (s.statusWord .spi) ++ [0#8, 0#8] }) = true := by decide +kernel

theorem wit_writeFrames : [(1, Instr.cmdWriteIncrementing (.spi (frameOf (hdr 1 aNVM_WDATA) [0xFEDCBA98]))), (2, .cmdWriteFixed (.spi (frameOf (hdr 2 aNVM_WDATA) [0xFEDCBA98])))].all
    (fun x => works { portDev with ports := { spi := { count := 255, cause := 1 } } } x.2 (fun s => s.listens .spi && free s .spi && !s.lockedTo .spi 4 &&
      hdrAddr (hdr x.1 aNVM_WDATA) == aNVM_WDATA && hdrOp (hdr x.1 aNVM_WDATA) == x.1 && hdrCount (hdr x.1 aNVM_WDATA) == 1) fun s t =>
      t.reg aNVM_WDATA == 0xFEDCBA98#32 && sameBut s t [aNVM_WDATA] && t.ports.spi.count == 0 && t.ports.spi.cause == 0) = true := by decide +kernel

theorem wit_readFrames : [Instr.cmdReadIncrementing (.spi (frameOf (hdr 3 aNVM_WDATA) [])), .cmdReadFixed (.spi (frameOf (hdr 4 aNVM_WDATA) []))].all (fun c =>
    works ((portDev).setReg aNVM_WDATA 0x31323334#32) c (fun s => s.listens .spi && free s .spi) fun s t => sameBut s t [] && t.ports.spi.count == 1 && t.ports.spi.cause == 0 &&
      t.ports.spi.response == beBytes 4 (s.statusWord .spi) ++ [0#8, 0#8, 0x5A#8, 0x31#8, 0x32#8, 0x33#8, 0x34#8, 0x53#8, 0x49#8]) = true := by
  decide +kernel

theorem wit_reservedFrames : [5, 15].all (fun op => works (portDev) (.reservedOpFrame (.spi (frameOf (hdr op 0) []))) (fun s => s.listens .spi && free s .spi && decide (5 ≤ hdrOp (hdr op 0)))
    fun s t => t.ports.spi.cause == 0xA0 && t.ports.spi.count == 1 && t.on CTL_IRQ_STAT_frame_error && sameBut s t [aCTL_LAST_REJECT, aCTL_IRQ_STAT]) = true := by
  decide +kernel

theorem wit_readNotServed : works (portDev) (.readNotServed (.i2c 0x36 (frameOf (hdr 3 aNVM_WDATA) []))) (fun s => s.listens .i2c && free s .i2c && s.i2cAddress == 0x36) (fun _ t =>
    t.ports.i2c.cause == 0xAA && t.ports.i2c.response == [0xE1#8, 0xAA#8] && t.ports.i2c.count == 1) = true := by decide +kernel

theorem wit_truncated : [Port.spi, .i2c].all (fun p => works (portDev) (.frameTruncated p [1#8, 2#8, 3#8] false) (fun s => s.listens p) fun _ t =>
    (t.portSt p).cause == 0xA0 && (t.portSt p).count == 1 && t.on CTL_IRQ_STAT_frame_error) = true := by decide +kernel

theorem wit_i2cStatus : works (portDev) .i2cStatus (fun s => s.listens .i2c) (fun s t => sameBut s t [] && t.ports.i2c.count == 0 &&
    t.ports.i2c.response.take 4 == beBytes 4 (s.statusWord .i2c)) = true := by decide +kernel

/-- Inbound queue 0 with commands in it, of a structure's depth 32, on an aligned back-channel. -/
def queueDev (n : Nat) : State :=
  let s := sectioned [{ type := 4, inst := 4, body := [1#8, 2#8, 0#8] ++ List.replicate 1021 0#8 }] (portDev [(LNK_STATUS_bc_aligned, 1)])
  { s with ports := { queues := if n = 0 then [] else [(0, List.replicate n { tag := 5, header := 0, data := [] })] } }

/-- A write of NVM_WDATA as a CMD body, with tag 65535. -/
def cmdBytes : List Byte := wordBytes ([0xFFFF0000, hdr 1 aNVM_WDATA] ++ [3])

theorem wit_cmd : works (queueDev 1) (.cmd cmdBytes) (fun s => s.queueOpen 0 && s.on LNK_STATUS_bc_aligned && decide ((s.queued 0).length < (s.queueDesc 0).2.1)) (fun s t =>
    t.queued 0 == s.queued 0 ++ [{ tag := 65535, header := hdr 1 aNVM_WDATA, data := [3] }]) = true := by decide +kernel

theorem wit_cmdFull : works (queueDev 32) (.cmd cmdBytes) (fun s => s.queueOpen 0 && decide ((s.queueDesc 0).2.1 ≤ (s.queued 0).length)) (fun s t =>
    t.queued 0 == s.queued 0 && t.on RING_IRQ_STAT_inq_full && ((t.ring 0).spool.map fun p => (p.type, p.payload)) == [(0, wordBytes [0xFFFF00A6, hdr 1 aNVM_WDATA])]) = true := by
  decide +kernel

theorem wit_queuedNop : works (queueDev 1) (.cmdNop (.queue 0)) (fun s => s.listens .backChannel && free s .backChannel && s.presented == some 0 && !s.on (RING_INQ_STAT_tag_valid 0) &&
    (Sparse.find s.ports.underOld 0).isNone) (fun _ t => (t.queued 0).isEmpty && t.get (RING_INQ_STAT_last_tag 0) == 5 && t.on (RING_INQ_STAT_tag_valid 0) &&
      ((t.ring 0).spool.map fun p => (p.type, p.payload)) == [(0, wordBytes [5 * 2 ^ 16, 0])]) = true := by decide +kernel

/-! ### The whole machine -/

theorem wit_stepFront : (match step { State.reset with pending := [.nvmUnlock 0x6A53#32, .nvmRead] } with
    | .next t => t.pending == [.nvmRead] && t.on NVM_STATUS_unlocked
    | _ => false) = true := by decide +kernel

theorem wit_idleStep : (match step State.reset with | .next t => t.cycle == 1 && t.pending.isEmpty | _ => false) = true := by decide +kernel

theorem wit_canonical : (match step { State.reset with pending := [.stageData 1#32] } with
    | .next t => State.reset.wf && State.reset.shaped && t.wf && t.shaped && t.arcadeMem == [(0x3C00000, 1#8)]
    | _ => false) = true := by decide +kernel

theorem wit_frames : [(Instr.commit .a, 0), (.pioNop 7, 2), (.subPulse 3, 1)].all (fun x => x.1.wellFormed &&
    [x.1.controlFootprint.isSome, x.1.imagerFootprint.isSome, x.1.edgeFootprint.isSome] == [decide (x.2 = 0), decide (x.2 = 1), decide (x.2 = 2)] &&
    (match exec x.1 State.reset with | .next _ => true | _ => false)) = true := by decide +kernel

theorem wit_w1c : ((regRow NVM_IRQ_STAT_done.addr).map fun r => bit r.w1c NVM_IRQ_STAT_done.lo && NVM_IRQ_STAT_done.w == 1 &&
    ((State.reset.hwSet NVM_IRQ_STAT_done).plainWrite NVM_IRQ_STAT_done.addr 1#32).on NVM_IRQ_STAT_done &&
    ((State.reset.plainWrite NVM_IRQ_STAT_done.addr 1#32).hwSet NVM_IRQ_STAT_done).on NVM_IRQ_STAT_done) = some true := by decide +kernel

theorem wit_unlockEnds : [Instr.nvmRead, .nvmProgram, .nvmEraseSector, .storeSeeds, .nvmCmdReservedOp 0, .nvmCmdReservedOp 7].all (fun c =>
    works (dev [(NVM_STATUS_unlocked, 1)]) c (fun s => s.on NVM_STATUS_unlocked) fun _ t => !t.on NVM_STATUS_unlocked) = true := by decide +kernel

theorem wit_locked4B : [Instr.nvmProgram, .nvmEraseSector].all (fun c => [18, 21].all fun k => works (dev [(NVM_ADDR_addr, 4096 * k)]) c
    (fun s => !s.on NVM_STATUS_unlocked && s.nvm.running.isNone && !s.sealed) fun s t => t.get NVM_STATUS_cause == 0x4B && t.nvm == s.nvm) = true := by
  decide +kernel

end Sys2Proof.Tests
end

section
/-! SUPPORT. The laws of the bitwise operations, and of a host write by access code (R5, R9, R15). -/

namespace Sys2Proof.Machine

/-! ### Bits of the bitwise operations -/

theorem bit_eq_testBit (x i : Nat) : bit x i = x.testBit i := by
  simp [bit, Nat.testBit_eq_decide_div_mod_eq, beq_eq_decide]

@[simp] theorem bit_land (a b i : Nat) : bit (land a b) i = (bit a i && bit b i) := by
  simp only [bit_eq_testBit]
  exact Nat.testBit_and a b i

@[simp] theorem bit_lor (a b i : Nat) : bit (lor a b) i = (bit a i || bit b i) := by
  simp only [bit_eq_testBit]
  exact Nat.testBit_or a b i

@[simp] theorem bit_ldiff (a b i : Nat) : bit (Nat.ldiff a b) i = (bit a i && !bit b i) := by
  simp only [bit_eq_testBit, Nat.testBit_ldiff]

theorem eq_of_bit_eq {a b : Nat} (h : ∀ i, bit a i = bit b i) : a = b :=
  Nat.eq_of_testBit_eq fun i => by simpa only [bit_eq_testBit] using h i

@[simp] theorem bit_zero (i : Nat) : bit 0 i = false := by simp [bit]

theorem bit_mod_two_pow (x : Nat) {n i : Nat} (h : i < n) : bit (x % 2 ^ n) i = bit x i := by
  simp [bit_eq_testBit, Nat.testBit_mod_two_pow, h]

@[simp] theorem bit_two_pow_self (i : Nat) : bit (2 ^ i) i = true := by rw [bit_eq_testBit, Nat.testBit_two_pow_self]

/-- Numbers that share no bit add without a carry. -/
theorem add_eq_lor_of_land_eq_zero {a b : Nat} (h : land a b = 0) : a + b = lor a b := by
  induction a using Nat.strongRecOn generalizing b with
  | ind a ih =>
    by_cases ha : a = 0
    · subst ha; simp [lor]
    have hhalf : land (a / 2) (b / 2) = 0 := by
      have := congrArg (· / 2) h
      simpa [land, Nat.and_div_two] using this
    have hlow : ¬(a % 2 = 1 ∧ b % 2 = 1) := by
      have := congrArg (·.testBit 0) h
      simpa [land, Nat.testBit_zero] using this
    have hor : lor a b / 2 = lor (a / 2) (b / 2) := Nat.or_div_two
    have hmod : lor a b % 2 = 1 ↔ a % 2 = 1 ∨ b % 2 = 1 := Nat.or_mod_two_eq_one
    have := ih (a / 2) (by omega) hhalf
    omega

/-- Clearing by subtraction is the bitwise difference: what is kept and what is cleared share no bit. -/
theorem andNot_eq_ldiff (a b : Nat) : andNot a b = Nat.ldiff a b := by
  have hdisj : land (Nat.ldiff a b) (land a b) = 0 :=
    eq_of_bit_eq fun i => by rw [bit_land, bit_ldiff, bit_land]; cases bit b i <;> simp
  have hparts : lor (Nat.ldiff a b) (land a b) = a :=
    eq_of_bit_eq fun i => by rw [bit_lor, bit_ldiff, bit_land]; cases bit b i <;> simp
  have hsum : Nat.ldiff a b + land a b = a := (add_eq_lor_of_land_eq_zero hdisj).trans hparts
  exact Nat.sub_eq_of_eq_add hsum.symm

@[simp] theorem bit_andNot (a b i : Nat) : bit (andNot a b) i = (bit a i && !bit b i) := by
  rw [andNot_eq_ldiff, bit_ldiff]

/-! ### The rows of the register map -/

theorem mem_of_regRow {a : Nat} {r : RegRow} (h : regRow a = some r) : ∃ b ∈ regBlocks, r ∈ b.2 := by
  cases hb : blockOf a with
  | none => rw [regRow, hb] at h; cases h
  | some i =>
    rw [regRow, hb] at h
    have hr := List.mem_of_find?_eq_some h
    by_cases hi : i < regBlocks.length
    · rw [List.getD_eq_getElem _ _ hi] at hr
      exact ⟨regBlocks[i], List.getElem_mem hi, hr⟩
    · rw [List.getD_eq_default _ _ (Nat.le_of_not_lt hi)] at hr
      cases hr

/-- No bit of the register map is both stored by a write and cleared by writing 1 (R5). -/
theorem regBlocks_rw_w1c_disjoint : ∀ b ∈ regBlocks, ∀ r ∈ b.2, land r.rw r.w1c = 0 := by decide

theorem rw_w1c_disjoint {a : Nat} {r : RegRow} (h : regRow a = some r) : land r.rw r.w1c = 0 := by
  obtain ⟨b, hb, hr⟩ := mem_of_regRow h
  exact regBlocks_rw_w1c_disjoint b hb r hr

theorem not_rw_of_w1c {a i : Nat} {r : RegRow} (h : regRow a = some r) (hc : bit r.w1c i = true) : bit r.rw i = false := by
  have := bit_land r.rw r.w1c i
  rw [rw_w1c_disjoint h, hc] at this
  simpa using this.symm

/-! ### A host write by access code -/

/-- Each bit after a host write of `v`: stored where the row is RW, else kept unless a 1 clears it (R5, R15). -/
theorem RegRow.bit_written {a : Nat} {r : RegRow} (h : regRow a = some r) (old v fresh i : Nat) :
    bit (r.written old v fresh) i =
      if bit r.rw i then bit v i else bit old i && !(bit r.w1c i && bit v i && !bit fresh i) := by
  have hdisj : land (andNot old r.rw) (land v r.rw) = 0 :=
    eq_of_bit_eq fun j => by rw [bit_land, bit_andNot, bit_land]; cases bit r.rw j <;> simp
  simp only [RegRow.written, add_eq_lor_of_land_eq_zero hdisj, bit_andNot, bit_lor, bit_land]
  cases hc : bit r.w1c i with
  | true => simp [not_rw_of_w1c h hc, Bool.and_comm]
  | false => cases bit r.rw i <;> simp

theorem State.reg_plainWrite_same (s : State) {a : Nat} {r : RegRow} (v : Word) (h : regRow a = some r) :
    (s.plainWrite a v).reg a =
      BitVec.ofNat 32 (r.written (s.reg a).toNat v.toNat (Sparse.get 0 s.freshBits a)) := by
  rw [State.plainWrite, h]
  dsimp only
  rw [apply_ite (State.reg · a), State.reg_withHeldOld, State.reg_setReg_same, ite_self]

theorem State.bit_reg_plainWrite (s : State) {a i : Nat} {r : RegRow} (v : Word) (h : regRow a = some r) (hi : i < 32) :
    bit ((s.plainWrite a v).reg a).toNat i =
      bit (r.written (s.reg a).toNat v.toNat (Sparse.get 0 s.freshBits a)) i := by
  rw [s.reg_plainWrite_same v h, BitVec.toNat_ofNat, bit_mod_two_pow _ hi]

/-! ### W1C bits that hardware sets -/

theorem State.on_eq_bit (s : State) {f : Fld} (hw : f.w = 1) : s.on f = bit (s.reg f.addr).toNat f.lo := by
  simp [State.on, State.get, bits, bit, hw]

theorem State.bit_freshBits_hwSet (s : State) {f : Fld} (hw : f.w = 1) :
    bit (Sparse.get 0 (s.hwSet f).freshBits f.addr) f.lo = true := by
  have : Sparse.get 0 (s.hwSet f).freshBits f.addr = lor (Sparse.get 0 s.freshBits f.addr) (2 ^ f.lo) := by
    simp [State.hwSet, State.withFreshBits, Sparse.get, Sparse.find_insert, hw]
  rw [this, bit_lor, bit_two_pow_self, Bool.or_true]

/-- A host write leaves a W1C bit set that hardware set in this cycle (R15). -/
theorem State.on_plainWrite_of_fresh (s : State) {f : Fld} {r : RegRow} (v : Word) (hw : f.w = 1) (hlo : f.lo < 32)
    (h : regRow f.addr = some r) (hc : bit r.w1c f.lo = true) (hset : s.on f = true)
    (hfresh : bit (Sparse.get 0 s.freshBits f.addr) f.lo = true) : (s.plainWrite f.addr v).on f = true := by
  rw [State.on_eq_bit _ hw] at hset ⊢
  rw [s.bit_reg_plainWrite v h hlo, RegRow.bit_written h]
  simp [not_rw_of_w1c h hc, hset, hfresh]

end Sys2Proof.Machine
end

section
/-! PROOFS. The statements of 00_scope.md. -/

namespace Sys2Proof.Machine

/-- Settles O57: hardware's set marks the bit as fresh, which the later write spares; a set after the write sets it anew. -/
theorem w1cRace : Obligations.W1cRace := by
  intro s f r v hw hlo hrow hc
  have hfits : f.lo + f.w ≤ 32 := by omega
  constructor
  · exact (s.hwSet f).on_plainWrite_of_fresh v hw hlo hrow hc (s.on_hwSet f hfits hw) (s.bit_freshBits_hwSet hw)
  · exact (s.plainWrite f.addr v).on_hwSet f hfits hw

end Sys2Proof.Machine
end

section
/-! SUPPORT. The laws of the NVM commands (R173 to R186). -/

namespace Sys2Proof.Machine

/-! ### The result of a command -/

@[simp] theorem State.nvmResult_nvm (s : State) (c : Nat) : (s.nvmResult c).nvm = s.nvm := by
  simp only [State.nvmResult]
  split <;> simp

/-- The result writes the cause and the interrupts alone. -/
theorem State.get_nvmResult_apart (s : State) (c : Nat) {f : Fld} (hirq : aNVM_IRQ_STAT ≠ f.addr)
    (hcause : NVM_STATUS_cause.apart f) : (s.nvmResult c).get f = s.get f := by
  have hdone : ((s.put NVM_STATUS_cause c).hwSet NVM_IRQ_STAT_done).get f = s.get f := by
    rw [State.get_hwSet_apart _ 1 (by decide) (.inl hirq), s.get_put_apart c (by decide) hcause]
  simp only [State.nvmResult]
  split
  · exact hdone
  · rw [State.get_hwSet_apart _ 1 (by decide) (.inl hirq), hdone]

theorem State.get_cause_nvmResult (s : State) {c : Nat} (hc : c < 256) : (s.nvmResult c).get NVM_STATUS_cause = c := by
  have hirq (t : State) {f : Fld} (hf : f.lo + f.w ≤ 32) (ha : f.addr = aNVM_IRQ_STAT) :
      (t.hwSet f).get NVM_STATUS_cause = t.get NVM_STATUS_cause :=
    t.get_hwSet_apart 1 hf (.inl (by rw [ha]; decide))
  have hput : (s.put NVM_STATUS_cause c).get NVM_STATUS_cause = c := by
    rw [s.get_put_same _ c (by decide)]
    exact Nat.mod_eq_of_lt hc
  simp only [State.nvmResult]
  split
  · rw [hirq _ (by decide) rfl, hput]
  · rw [hirq _ (by decide) rfl, hirq _ (by decide) rfl, hput]

/-! ### The unlock -/

theorem State.on_unlocked_put_one (s : State) : (s.put NVM_STATUS_unlocked 1).on NVM_STATUS_unlocked = true := by
  have hset : (s.put NVM_STATUS_unlocked 1).get NVM_STATUS_unlocked = 1 := s.get_put_same _ 1 (by decide)
  simp [State.on, hset]

theorem State.get_unlocked_put_zero (s : State) : (s.put NVM_STATUS_unlocked 0).get NVM_STATUS_unlocked = 0 :=
  s.get_put_same _ 0 (by decide)

theorem State.get_unlocked_nvmResult (s : State) (c : Nat) :
    (s.nvmResult c).get NVM_STATUS_unlocked = s.get NVM_STATUS_unlocked :=
  s.get_nvmResult_apart c (by decide) (.inr (.inl (by decide)))

theorem State.get_unlocked_nvmStart (s : State) (o : NvmOp) :
    (s.nvmStart o).get NVM_STATUS_unlocked = s.get NVM_STATUS_unlocked := by
  rw [State.nvmStart, State.get_put_apart _ 1 (by decide) (.inr (.inr (by decide))), State.get_withNvm]

theorem State.get_storeTake (s : State) (f : Fld) : s.storeTake.get f = s.get f := by
  simp only [State.storeTake]
  split <;> simp

/-- Any command ends a pending unlock (R175), whichever way it goes: refused, a read, or an operation that starts. -/
theorem State.on_unlocked_nvmCmd (s : State) (op : Nat) : (s.nvmCmd op).on NVM_STATUS_unlocked = false := by
  have hcleared := s.get_unlocked_put_zero
  have hread (v c : Nat) :
      (((s.put NVM_STATUS_unlocked 0).put NVM_RDATA_data v).nvmResult c).get NVM_STATUS_unlocked = 0 := by
    rw [State.get_unlocked_nvmResult, State.get_put_addr _ v (by decide), hcleared]
  have hstart (o : NvmOp) : ((s.put NVM_STATUS_unlocked 0).nvmStart o).get NVM_STATUS_unlocked = 0 := by
    rw [State.get_unlocked_nvmStart, hcleared]
  suffices h : (s.nvmCmd op).get NVM_STATUS_unlocked = 0 by simp [State.on, h]
  simp only [State.nvmCmd]
  split_ifs
  · rw [State.get_unlocked_nvmResult, hcleared]
  · exact hread _ _
  · exact hread _ _
  · exact hstart _
  · exact hstart _
  · exact hstart _
  · rw [State.get_storeTake, hstart]

/-! ### Refusals -/

theorem State.nvmCmd_of_refused {s : State} {op : Nat} (h : s.nvmRefusal op ≠ 0) :
    s.nvmCmd op = (s.put NVM_STATUS_unlocked 0).nvmResult (s.nvmRefusal op) := by
  simp only [State.nvmCmd, ne_eq, h, not_false_eq_true, if_true]

/-- A program or an erase without an unlock, where the checks made before that of R175 pass. -/
theorem State.nvmRefusal_of_locked {s : State} {op : Nat} (hop : op = 2 ∨ op = 3) (haligned : s.get NVM_ADDR_addr % 4 = 0)
    (hsupervisor : s.safe.supervisorDead = false) (hhost : hostWrites (nvmSector (s.get NVM_ADDR_addr)) = true)
    (hseal : op = 3 → nvmSector (s.get NVM_ADDR_addr) = 18 → s.sealed = false) (hidle : s.nvm.running = none)
    (hlocked : s.on NVM_STATUS_unlocked = false) : s.nvmRefusal op = 0x4B := by
  have hvalid : ¬(op = 0 ∨ 4 < op ∨ s.get NVM_ADDR_addr % 4 ≠ 0) := by omega
  have hunsealed : ¬(op = 3 ∧ nvmSector (s.get NVM_ADDR_addr) = 18 ∧ s.sealed = true) := fun ⟨ho, hk, hs⟩ => by
    simp [hseal ho hk] at hs
  have hnotStore : ¬(op = 4 ∧ s.power < 3) := by omega
  simp [State.nvmRefusal, hvalid, hsupervisor, hhost, hunsealed, hidle, hnotStore, hop, hlocked]

/-- The same at the byte address of word `a`: the command answers cause 0x4B and leaves the NVM. -/
theorem State.nvmCmd_of_locked {s : State} {op a : Nat} (hop : op = 2 ∨ op = 3) (haddr : s.get NVM_ADDR_addr = 4 * a)
    (hsupervisor : s.safe.supervisorDead = false) (hhost : a / 1024 = 18 ∨ 21 ≤ a / 1024)
    (hseal : op = 3 → a / 1024 = 18 → s.sealed = false) (hidle : s.nvm.running = none)
    (hlocked : s.on NVM_STATUS_unlocked = false) :
    (s.nvmCmd op).get NVM_STATUS_cause = 0x4B ∧ (s.nvmCmd op).nvm = s.nvm := by
  have hsector : nvmSector (s.get NVM_ADDR_addr) = a / 1024 := by rw [haddr, nvmSector]; omega
  have hrefusal : s.nvmRefusal op = 0x4B :=
    State.nvmRefusal_of_locked hop (by omega) hsupervisor (by simpa [hsector, hostWrites] using hhost)
      (by rwa [hsector]) hidle hlocked
  rw [State.nvmCmd_of_refused (by rw [hrefusal]; decide), hrefusal]
  exact ⟨State.get_cause_nvmResult _ (by decide), by simp⟩

/-! ### The commands -/

theorem exec_nvmUnlock_key (s : State) : exec (.nvmUnlock 0x6A53#32) s = .next (s.put NVM_STATUS_unlocked 1) := rfl

theorem exec_nvmRead (s : State) : exec .nvmRead s = .next (s.nvmCmd 1) := rfl

theorem exec_nvmProgram (s : State) : exec .nvmProgram s = .next (s.nvmCmd 2) := rfl

theorem exec_nvmEraseSector (s : State) : exec .nvmEraseSector s = .next (s.nvmCmd 3) := rfl

theorem exec_storeSeeds (s : State) : exec .storeSeeds s = .next (s.nvmCmd 4) := rfl

theorem exec_nvmCmdReservedOp {op : Nat} (h : op = 0 ∨ (5 ≤ op ∧ op ≤ 7)) (s : State) :
    exec (.nvmCmdReservedOp op) s = .next (s.nvmCmd op) :=
  congrArg Host.Outcome.next (if_pos h)

end Sys2Proof.Machine
end

section
/-! PROOFS. The statements of 05_boot_nvm_versions.md. -/

namespace Sys2Proof.Machine

/-- Settles O58: every command runs through `State.nvmCmd`, which clears the unlock first; the refusals that stand before
0x4B are excluded one by one. -/
theorem nvmUnlockOnce : Obligations.NvmUnlockOnce := by
  refine ⟨fun s => ⟨_, exec_nvmUnlock_key s, s.on_unlocked_put_one⟩, fun s c hc => ?_,
    fun a s haddr hsup hidle hlocked hhost => ⟨?_, fun hseal => ?_⟩⟩
  · obtain ⟨op, hexec⟩ : ∃ op, exec c s = .next (s.nvmCmd op) := by
      simp only [List.mem_cons, List.not_mem_nil, or_false] at hc
      rcases hc with rfl | rfl | rfl | rfl | rfl | rfl | rfl | rfl
      · exact ⟨1, exec_nvmRead s⟩
      · exact ⟨2, exec_nvmProgram s⟩
      · exact ⟨3, exec_nvmEraseSector s⟩
      · exact ⟨4, exec_storeSeeds s⟩
      · exact ⟨0, exec_nvmCmdReservedOp (by decide) s⟩
      · exact ⟨5, exec_nvmCmdReservedOp (by decide) s⟩
      · exact ⟨6, exec_nvmCmdReservedOp (by decide) s⟩
      · exact ⟨7, exec_nvmCmdReservedOp (by decide) s⟩
    exact ⟨_, hexec, s.on_unlocked_nvmCmd op⟩
  · exact ⟨_, exec_nvmProgram s, State.nvmCmd_of_locked (.inl rfl) haddr hsup hhost (by simp) hidle hlocked⟩
  · exact ⟨_, exec_nvmEraseSector s, State.nvmCmd_of_locked (.inr rfl) haddr hsup hhost (fun _ => hseal) hidle hlocked⟩

end Sys2Proof.Machine
end

section
/-! SUPPORT. The laws of masks, of the newest entry of the event log (R659), of the owners of blocks and of the lock break
(R216, R217). -/

namespace Sys2Proof.Machine

/-! ### The mask of a list -/

theorem eraseDups_of_nodup {l : List Nat} (h : l.Nodup) : l.eraseDups = l := by
  induction l with
  | nil => rfl
  | cons a l ih =>
    obtain ⟨ha, hl⟩ := List.nodup_cons.1 h
    have hother : l.filter (fun b => !b == a) = l :=
      List.filter_eq_self.2 fun b hb => by simpa using ne_of_mem_of_not_mem hb ha
    rw [List.eraseDups_cons, hother, ih hl]

/-- A power that a number does not hold joins it as one bit. -/
theorem bit_add_two_pow {x j : Nat} (h : bit x j = false) (i : Nat) : bit (x + 2 ^ j) i = (bit x i || decide (j = i)) := by
  have hpow : bit (2 ^ j) i = decide (j = i) := by rw [bit_eq_testBit, Nat.testBit_two_pow]
  have hdisj : land x (2 ^ j) = 0 := eq_of_bit_eq fun k => by
    rw [bit_land, bit_zero, bit_eq_testBit (2 ^ j), Nat.testBit_two_pow]
    by_cases hk : j = k
    · simp [← hk, h]
    · simp [hk]
  rw [add_eq_lor_of_land_eq_zero hdisj, bit_lor, hpow]

theorem bit_foldl_add_two_pow {l : List Nat} (hl : l.Nodup) (x : Nat) (hx : ∀ j ∈ l, bit x j = false) (i : Nat) :
    bit (l.foldl (fun a j => a + 2 ^ j) x) i = (bit x i || decide (i ∈ l)) := by
  induction l generalizing x with
  | nil => simp
  | cons j l ih =>
    obtain ⟨hj, hl⟩ := List.nodup_cons.1 hl
    have hadd := bit_add_two_pow (hx j (by simp))
    have hrest : ∀ k ∈ l, bit (x + 2 ^ j) k = false := fun k hk => by
      rw [hadd, hx k (by simp [hk])]
      simpa using (ne_of_mem_of_not_mem hk hj).symm
    rw [List.foldl_cons, ih hl _ hrest, hadd]
    simp [Bool.or_assoc, eq_comm]

theorem bit_maskOf {l : List Nat} (h : l.Nodup) (i : Nat) : bit (maskOf l) i = decide (i ∈ l) := by
  rw [maskOf, eraseDups_of_nodup h, bit_foldl_add_two_pow h 0 fun j _ => bit_zero j]
  simp

/-! ### The newest entry of the event log -/

theorem State.reg_foldl_setLast (f : Nat → Word) (l : List Nat) (s : State) (i : Nat) :
    (l.foldl (fun s j => s.setReg (aSAFE_LOG_LAST j) (f j)) s).reg (aSAFE_LOG_LAST i) =
      if i ∈ l then f i else s.reg (aSAFE_LOG_LAST i) := by
  have hinj (j : Nat) : aSAFE_LOG_LAST i = aSAFE_LOG_LAST j ↔ i = j := by simp only [aSAFE_LOG_LAST]; omega
  induction l generalizing s with
  | nil => simp
  | cons j l ih =>
    rw [List.foldl_cons, ih, State.reg_setReg]
    by_cases hl : i ∈ l
    · simp [hl]
    · by_cases hj : i = j <;> simp [hl, hj, hinj]

theorem State.reg_showLast (s : State) (e : LogEntry) {i : Nat} (h : i < 8) :
    (s.showLast e).reg (aSAFE_LOG_LAST i) = BitVec.ofNat 32 (nth e.words i) := by
  have hzip : e.words.zip (List.range 8) = (List.range 8).map fun j => (nth e.words j, j) := rfl
  rw [State.showLast, hzip, List.foldl_map,
    State.reg_foldl_setLast (fun j => BitVec.ofNat 32 (nth e.words j)), if_pos (List.mem_range.2 h)]

theorem State.showLast_safe (s : State) (e : LogEntry) : (s.showLast e).safe = s.safe :=
  (showLast_keeps (P := []) (B := [bSAFE]) s e (by simp)).1 .safe (by simp)

theorem State.logPut_log (s : State) (e : LogEntry) : (s.logPut e).safe.log = s.safe.log ++ [e] := by
  rw [State.logPut, State.showLast_safe]
  rfl

theorem State.reg_logPut (s : State) (e : LogEntry) {i : Nat} (h : i < 8) :
    (s.logPut e).reg (aSAFE_LOG_LAST i) = BitVec.ofNat 32 (nth e.words i) := State.reg_showLast _ e h

/-- A packet that leaves takes entries away, and leaves the newest one shown. -/
theorem State.reg_logFlush (s : State) {i : Nat} (h : i < 8) :
    s.logFlush.reg (aSAFE_LOG_LAST i) = s.reg (aSAFE_LOG_LAST i) := by
  have hheld : aSAFE_LOG_LAST i ≠ SAFE_LOG_STATUS_held.addr := by
    simp only [aSAFE_LOG_LAST, SAFE_LOG_STATUS_held, aSAFE_LOG_STATUS]; omega
  have hblock : aSAFE_LOG_LAST i / 0x10000 ∉ [bRING] := by
    simp only [aSAFE_LOG_LAST, bRING, List.mem_singleton]; omega
  have hbuilt (t : State) (payload : List Byte) :
      (t.buildCounted 1 7 payload).reg (aSAFE_LOG_LAST i) = t.reg (aSAFE_LOG_LAST i) :=
    (buildCounted_keeps (P := [.rings, .freshBits]) t 7 payload (by decide) (by simp) (by simp) (by simp)).2 _ hblock
  simp only [State.logFlush, State.logPacket]
  split_ifs
  · rfl
  · rw [hbuilt, State.reg_put_ne _ _ _ hheld, State.reg_withSafe]
  · rfl

/-- An entry that the log has room for shows in SAFE_LOG_LAST, also after a report of lost ones (R659, R661). -/
theorem State.reg_log (s : State) (e : LogEntry) (hroom : s.safe.log.length < 511) {i : Nat} (h : i < 8) :
    (s.log e).reg (aSAFE_LOG_LAST i) = BitVec.ofNat 32 (nth e.words i) := by
  have hfits : ¬512 ≤ s.safe.log.length := by omega
  have hput (t : State) : (t.logPut e).logFlush.reg (aSAFE_LOG_LAST i) = BitVec.ofNat 32 (nth e.words i) := by
    rw [State.reg_logFlush _ h, State.reg_logPut t e h]
  simp only [State.log, hfits, if_false]
  split
  · rw [if_neg]
    · exact hput _
    · rw [State.logPut_log, List.length_append, State.withSafe_safe]
      simp only [List.length_singleton]
      omega
  · exact hput s

/-! ### The owners of blocks -/

theorem ownerField_fits {n : Nat} (h : n < 21) : (ownerField n).lo + (ownerField n).w ≤ 32 := by
  unfold ownerField; split <;> simp only <;> omega

theorem ownerField_apart {m n : Nat} (h : m ≠ n) : (ownerField m).apart (ownerField n) := by
  unfold ownerField Fld.apart; split <;> split <;> simp only [aCTL_OWNER_LO, aCTL_OWNER_HI] <;> omega

theorem ownerField_block (n : Nat) : (ownerField n).addr / 0x10000 = bCTL := by
  unfold ownerField
  split
  · exact (rfl : aCTL_OWNER_LO / 0x10000 = bCTL)
  · exact (rfl : aCTL_OWNER_HI / 0x10000 = bCTL)

theorem ownerField_w (n : Nat) : (ownerField n).w = 2 := by
  unfold ownerField; split <;> rfl

theorem ownerField_ne_irq (n : Nat) : CTL_IRQ_STAT_lock_broken.addr ≠ (ownerField n).addr := by
  unfold ownerField
  split
  · exact (by decide : aCTL_IRQ_STAT ≠ aCTL_OWNER_LO)
  · exact (by decide : aCTL_IRQ_STAT ≠ aCTL_OWNER_HI)

theorem State.owner_put (s : State) {n : Nat} (hn : n < 21) (w b : Nat) :
    (s.put (ownerField n) w).owner b = if b = n then w % 4 else s.owner b := by
  split
  · next h => rw [State.owner, h, s.get_put_same _ w (ownerField_fits hn), ownerField_w]; rfl
  · next h => exact s.get_put_apart w (ownerField_fits hn) (ownerField_apart (Ne.symm h))

theorem State.owner_setOwners (s : State) {bs : List Nat} (hbs : ∀ n ∈ bs, n < 21) (w b : Nat) :
    (s.setOwners bs w).owner b = if b ∈ bs then w % 4 else s.owner b := by
  induction bs generalizing s with
  | nil => rfl
  | cons n bs ih =>
    have hrest := ih (s.put (ownerField n) w) fun m hm => hbs m (by simp [hm])
    rw [s.owner_put (hbs n (by simp))] at hrest
    refine hrest.trans ?_
    by_cases hmem : b ∈ bs <;> simp [hmem]

/-! ### The lock break -/

/-- The blocks that are locked to a port. -/
def State.heldBlocks (s : State) : List Nat := (List.range 21).filter fun n => s.owner n != 0

theorem State.nodup_heldBlocks (s : State) : s.heldBlocks.Nodup := List.nodup_range.filter _

theorem State.mem_heldBlocks (s : State) {b : Nat} (h : b < 21) : b ∈ s.heldBlocks ↔ s.owner b ≠ 0 := by
  simp [State.heldBlocks, h]

theorem State.lockBreak_eq (s : State) (p : Port) :
    s.lockBreak p = ((s.setOwners s.heldBlocks 0).hwSet CTL_IRQ_STAT_lock_broken).log
      { cause := 0, kind := 4, block := 5, args := [p.num, maskOf s.heldBlocks], stamp := s.now } := rfl

/-- Freeing changes the control registers alone. -/
theorem State.setOwners_keeps (s : State) (bs : List Nat) (w : Nat) : s.keeps (s.setOwners bs w) [] [bCTL] :=
  keeps_foldl bs (fun s n _ => put_keeps s w (ownerField_block n) (by simp)) s

/-- A lock break keeps all but the control block, and what logging changes. -/
theorem State.lockBreak_keeps (s : State) (p : Port) :
    s.keeps (s.lockBreak p) [.safe, .rings, .freshBits] [bCTL, bSAFE, bRING] := by
  rw [State.lockBreak_eq]
  exact keeps_trans (keeps_mono (s.setOwners_keeps _ 0) (by simp) (by simp))
    (keeps_trans (hwSet_keeps _ 1 (b := bCTL) rfl (by simp) (by simp))
      (log_keeps _ _ (by simp) (by simp) (by simp) (by simp) (by simp)))

theorem State.ports_lockBreak (s : State) (p : Port) : (s.lockBreak p).ports = s.ports :=
  (s.lockBreak_keeps p).1 .ports (by simp)

theorem State.owner_lockBreak (s : State) (p : Port) {b : Nat} (hb : b < 21) : (s.lockBreak p).owner b = 0 := by
  have hfreed : (s.setOwners s.heldBlocks 0).owner b = 0 := by
    rw [s.owner_setOwners (by simp +contextual [State.heldBlocks])]
    split
    · rfl
    · next h => simpa [s.mem_heldBlocks hb] using h
  rw [State.lockBreak_eq, State.owner, keeps_get (log_keeps (P := [.safe, .rings, .freshBits]) (B := [bSAFE, bRING]) _ _
    (by simp) (by simp) (by simp) (by simp) (by simp)) (ownerField_block b) (by decide),
    State.get_hwSet_apart _ 1 (by decide) (.inl (ownerField_ne_irq b))]
  exact hfreed

/-- The entry of a lock break shows in SAFE_LOG_LAST: its port and the map of the freed blocks (R217, R659). -/
theorem State.reg_last_lockBreak (s : State) (p : Port) (hroom : s.safe.log.length < 511) :
    (s.lockBreak p).reg (aSAFE_LOG_LAST 0) = 0x50400#32 ∧
    (s.lockBreak p).reg (aSAFE_LOG_LAST 1) = BitVec.ofNat 32 p.num ∧
    (s.lockBreak p).reg (aSAFE_LOG_LAST 2) = BitVec.ofNat 32 (maskOf s.heldBlocks) := by
  have hsafe : ((s.setOwners s.heldBlocks 0).hwSet CTL_IRQ_STAT_lock_broken).safe = s.safe :=
    (s.setOwners_keeps s.heldBlocks 0).1 .safe (by simp)
  have hlast {i : Nat} (hi : i < 8) := State.reg_log ((s.setOwners s.heldBlocks 0).hwSet CTL_IRQ_STAT_lock_broken)
    { cause := 0, kind := 4, block := 5, args := [p.num, maskOf s.heldBlocks], stamp := s.now } (by rwa [hsafe]) hi
  rw [State.lockBreak_eq]
  refine ⟨?_, ?_, ?_⟩
  · rw [hlast (by decide)]; simp [LogEntry.words, nth]
  · rw [hlast (by decide)]; simp [LogEntry.words, nth, ← BitVec.toNat_inj]
  · rw [hlast (by decide)]; simp [LogEntry.words, nth, ← BitVec.toNat_inj]

/-! ### A write of CTL_LOCK_BREAK at the serializer -/

/-- The header of a one-word write of CTL_LOCK_BREAK. -/
def lockBreakHeader : Nat := 2 ^ 28 + aCTL_LOCK_BREAK / 4 % 2 ^ 22

@[simp] theorem hdrOp_lockBreakHeader : hdrOp lockBreakHeader = 1 := by decide

@[simp] theorem hdrAddr_lockBreakHeader : hdrAddr lockBreakHeader = aCTL_LOCK_BREAK := by decide

@[simp] theorem hdrAddrs_lockBreakHeader : hdrAddrs lockBreakHeader = [aCTL_LOCK_BREAK] := by decide

/-- The command that a write of CTL_LOCK_BREAK brings to the serializer. -/
def lockBreakCmd (p : Port) (v : Word) : PortCmd :=
  { port := p, header := some lockBreakHeader, data := [v.toNat], single := true }

@[simp] theorem lockBreakCmd_port (p : Port) (v : Word) : (lockBreakCmd p v).port = p := rfl

@[simp] theorem lockBreakCmd_header (p : Port) (v : Word) : (lockBreakCmd p v).header = some lockBreakHeader := rfl

@[simp] theorem lockBreakCmd_data (p : Port) (v : Word) : (lockBreakCmd p v).data = [v.toNat] := rfl

@[simp] theorem lockBreakCmd_err (p : Port) (v : Word) : (lockBreakCmd p v).err = 0 := rfl

@[simp] theorem lockBreakCmd_late (p : Port) (v : Word) : (lockBreakCmd p v).late = false := rfl

@[simp] theorem lockBreakCmd_cut (p : Port) (v : Word) : (lockBreakCmd p v).cut = false := rfl

theorem State.reaches_ctlLockBreak {s : State} (h : s.portsDead = false) (p : Port) (v : Word) :
    s.reaches (.ctlLockBreak p v) = some (lockBreakCmd p v) := by
  simp only [State.reaches, State.singleWrite, h]
  rfl

/-- CTL_LOCK_BREAK may be written from any port whoever holds the locks, before the boot has completed and in Minimal Mode
(R217). -/
theorem State.checkAccess_lockBreakCmd {s : State} (h : s.ports.writes = []) (p : Port) (v : Word) :
    s.checkAccess (lockBreakCmd p v) lockBreakHeader = 0 := by
  have hblock : portBlock aCTL_LOCK_BREAK = some 5 := by decide
  have hsame : sameBlock aCTL_LOCK_BREAK aCTL_LOCK_BREAK = true := by decide
  have hlockWord : (aCTL_LOCK_BREAK == aCTL_LOCK_TAKE || aCTL_LOCK_BREAK == aCTL_LOCK_FREE) = false := by decide
  simp [State.checkAccess, hblock, hsame, hlockWord, h]

theorem State.checkCmd_lockBreakCmd {s : State} (h : s.ports.writes = []) (p : Port) (v : Word) :
    s.checkCmd (lockBreakCmd p v) = 0 := by
  simp [State.checkCmd, State.checkAccess_lockBreakCmd h p v]

theorem State.takeWaiting_of_none {s : State} (h : s.ports.waiting = []) : s.takeWaiting = s := by
  simp [State.takeWaiting, h]

/-- What a word written to CTL_LOCK_BREAK does: the key frees every lock, any other value nothing (R217). -/
def State.lockBreakEffect (s : State) (p : Port) (v : Word) : State := if v = 0xB4EA#32 then s.lockBreak p else s

theorem State.ports_lockBreakEffect (s : State) (p : Port) (v : Word) : (s.lockBreakEffect p v).ports = s.ports := by
  unfold State.lockBreakEffect
  split
  · exact s.ports_lockBreak p
  · rfl

theorem State.wordWrite_lockBreak {s : State} (h : s.ports.waiting = []) (p : Port) (v : Word) :
    s.wordWrite p aCTL_LOCK_BREAK v = (s.lockBreakEffect p v, 0) := by
  have htake : aCTL_LOCK_BREAK ≠ aCTL_LOCK_TAKE := by decide
  have hfree : aCTL_LOCK_BREAK ≠ aCTL_LOCK_FREE := by decide
  simp [State.wordWrite, State.takeWaiting_of_none h, htake, hfree, accepted, State.lockBreakEffect]

theorem State.applyCmd_lockBreakCmd {s : State} (h : s.ports.waiting = []) (p : Port) (v : Word) :
    s.applyCmd (lockBreakCmd p v) lockBreakHeader = (s.lockBreakEffect p v, 0, []) := by
  simp [State.applyCmd, State.writeWords, State.wordWrite_lockBreak h]

/-- A write takes its part in the conflicts of the cycle: only the ports' own state changes (R191). -/
theorem State.noteWrite_eq (s : State) (c : PortCmd) :
    ∃ x : Ports, x.held = s.ports.held ∧ x.waiting = s.ports.waiting ∧ s.noteWrite c = s.withPorts x := by
  simp only [State.noteWrite]
  split
  · split
    · exact ⟨{ s.ports with writes := s.ports.writes ++ [_] }, rfl, rfl, rfl⟩
    · exact ⟨s.ports, rfl, rfl, rfl⟩
  · exact ⟨s.ports, rfl, rfl, rfl⟩

theorem State.setPort_eq (s : State) (p : Port) (y : PortSt) :
    ∃ x : Ports, x.held = s.ports.held ∧ s.setPort p y = s.withPorts x := by
  cases p with
  | backChannel => exact ⟨s.ports, rfl, rfl⟩
  | spi => exact ⟨{ s.ports with spi := y }, rfl, rfl⟩
  | i2c => exact ⟨{ s.ports with i2c := y }, rfl, rfl⟩

/-- The answer to a single register's write changes the state of its port alone; over the back-channel there is none. -/
theorem State.answer_single (s : State) {c : PortCmd} (hc : c.single = true) (status cause : Nat) (data : List Nat) :
    ∃ x : Ports, x.held = s.ports.held ∧ s.answer c status cause data false = s.withPorts x := by
  simp only [State.answer, hc]
  split
  · exact ⟨s.ports, rfl, rfl⟩
  · exact s.setPort_eq _ _

theorem State.serveCmd_lockBreakCmd {s : State} (hwrites : s.ports.writes = []) (hwaiting : s.ports.waiting = []) (p : Port)
    (v : Word) : ∃ x y : Ports, y.held = s.ports.held ∧
      s.serveCmd (lockBreakCmd p v) = ((s.withPorts x).lockBreakEffect p v).withPorts y := by
  obtain ⟨x, hxheld, hxwaiting, hnote⟩ := s.noteWrite_eq (lockBreakCmd p v)
  obtain ⟨y, hyheld, hanswer⟩ := ((s.withPorts x).lockBreakEffect p v).answer_single (c := lockBreakCmd p v) rfl
    (s.statusWord p) 0 []
  have hreset : asksReset (aCTL_LOCK_BREAK, v.toNat) = false := by
    have haddr : (aCTL_LOCK_BREAK == aSYS_RESET) = false := by decide
    simp [asksReset, haddr]
  refine ⟨x, y, by rw [hyheld, State.ports_lockBreakEffect, State.withPorts_ports, hxheld], ?_⟩
  have happly := State.applyCmd_lockBreakCmd (s := s.withPorts x) (hxwaiting.trans hwaiting) p v
  have hcheck := State.checkCmd_lockBreakCmd hwrites p v
  simp [State.serveCmd, hcheck, hnote, happly, hreset, hanswer]

theorem State.serveTurn_lockBreakCmd {s : State} {p : Port} (h : s.serializerFree p) (v : Word) :
    ∃ x y : Ports, y.held = [] ∧ s.serveTurn (lockBreakCmd p v) = ((s.withPorts x).lockBreakEffect p v).withPorts y := by
  obtain ⟨hwrites, htaken, hheld, hwaiting, -⟩ := h
  obtain ⟨x, y, hy, hserve⟩ := State.serveCmd_lockBreakCmd (s := s.withPorts { s.ports with taken := [p] }) hwrites hwaiting p v
  refine ⟨x, y, hy.trans hheld, ?_⟩
  have hcheck := State.checkCmd_lockBreakCmd hwrites p v
  have hturn : s.serveTurn (lockBreakCmd p v) =
      (s.withPorts { s.ports with taken := [p] }).serveCmd (lockBreakCmd p v) := by
    simp [State.serveTurn, hcheck, htaken]
  exact hturn.trans hserve

/-- Where no command waits for its turn, none is served. -/
theorem State.serveHeld_of_none {s : State} (h : s.ports.held = []) : s.serveHeld = s := by
  have hports : { s.ports with held := [] } = s.ports := by rw [← h]
  have hsame : s.withPorts s.ports = s := rfl
  simp [State.serveHeld, h, hports, hsame]

/-- A write of CTL_LOCK_BREAK that the serializer is free for has its effect, and beside it changes the ports' own state. -/
theorem State.exec_ctlLockBreak {s : State} {p : Port} (halive : s.portsDead = false) (hfree : s.serializerFree p) (v : Word) :
    ∃ x y : Ports, exec (.ctlLockBreak p v) s = .next (((s.withPorts x).lockBreakEffect p v).withPorts y) := by
  obtain ⟨x, y, hy, hturn⟩ := State.serveTurn_lockBreakCmd hfree v
  obtain ⟨-, -, -, -, hfirst⟩ := hfree
  have hreach : s.reach (lockBreakCmd p v) = (s.serveTurn (lockBreakCmd p v)).serveHeld := by
    simp [State.reach, hfirst]
  have hserve : s.serveSingle (.ctlLockBreak p v) = s.reach (lockBreakCmd p v) := by
    rw [State.serveSingle, State.reaches_ctlLockBreak halive]
  refine ⟨x, y, congrArg Host.Outcome.next ?_⟩
  rw [hserve, hreach, hturn, State.serveHeld_of_none hy]

end Sys2Proof.Machine
end

section
/-! PROOFS. The statements of 06_control_ports.md. -/

namespace Sys2Proof.Machine

/-- Settles O59: a write that the serializer is free for has the effect of `State.lockBreakEffect`; with the key that is
`State.lockBreak`, whose log entry has room and shows in SAFE_LOG_LAST. -/
theorem lockBreak : Obligations.LockBreak := by
  refine ⟨fun p s halive hfree hroom => ?_, fun p v s halive hfree hv => ?_⟩
  · obtain ⟨x, y, hexec⟩ := State.exec_ctlLockBreak halive hfree 0xB4EA#32
    rw [State.lockBreakEffect, if_pos rfl] at hexec
    obtain ⟨hhead, hport, hmap⟩ := (s.withPorts x).reg_last_lockBreak p hroom
    refine ⟨_, hexec, fun b hb => (s.withPorts x).owner_lockBreak p hb, hhead, ?_, fun b hb => ?_⟩
    · rw [State.reg_withPorts, hport]
      cases p <;> rfl
    · rw [State.reg_withPorts, hmap, BitVec.toNat_ofNat, bit_mod_two_pow _ (by omega),
        bit_maskOf (State.nodup_heldBlocks _)]
      exact decide_eq_decide.2 ((s.withPorts x).mem_heldBlocks hb)
  · obtain ⟨x, y, hexec⟩ := State.exec_ctlLockBreak halive hfree v
    rw [State.lockBreakEffect, if_neg hv] at hexec
    exact ⟨_, hexec, rfl⟩

end Sys2Proof.Machine
end
